-- ==== Sys2Proof/Word.lean ====
section
/-! DEFINITION. The widths of the machine's values: `spec/10_state.md` R11, R14 to R16 and the operand
fields of `spec/30_encoding.md` R62. Every value is unsigned (`spec/00_scope.md` R8). -/

namespace Sys2Proof

/-- An 8-bit value: a general register, a timer, a byte of memory (R11, R18, R20). -/
abbrev Byte := BitVec 8

/-- A 16-bit value: `I`, `PC`, a stack entry, an opcode (R14, R15, R16, R60). -/
abbrev Word := BitVec 16

/-- A 4-bit field: a register index `x` or `y`, a row count `n`, a key index (R62, R23). -/
abbrev Nibble := BitVec 4

/-- The 12-bit address field `nnn` (R62). -/
abbrev Addr := BitVec 12

end Sys2Proof
end

