-- ==== Sys2Proof/Syntax.lean ====
section
/-! DEFINITION. The typed instruction of `spec/30_encoding.md` R66 and R72: one constructor per row of
`spec/opcode_table.json`, each with exactly the operand fields of its row at the widths of R62. -/

namespace Sys2Proof

/-- A decoded instruction. Row numbers are those of R66. -/
inductive Instr where
  /-- row 0, `00E0` -/
  | clearDisplay
  /-- row 1, `00EE` -/
  | returnFromSubroutine
  /-- row 2, `1nnn` -/
  | jumpToAddress (nnn : Addr)
  /-- row 3, `2nnn` -/
  | callSubroutine (nnn : Addr)
  /-- row 4, `3xkk` -/
  | skipIfVxEqualsByte (x : Nibble) (kk : Byte)
  /-- row 5, `4xkk` -/
  | skipIfVxNotEqualsByte (x : Nibble) (kk : Byte)
  /-- row 6, `5xy0` -/
  | skipIfVxEqualsVy (x y : Nibble)
  /-- row 7, `6xkk` -/
  | setVxToByte (x : Nibble) (kk : Byte)
  /-- row 8, `7xkk` -/
  | addByteToVx (x : Nibble) (kk : Byte)
  /-- row 9, `8xy0` -/
  | setVxToVy (x y : Nibble)
  /-- row 10, `8xy1` -/
  | setVxToVxOrVy (x y : Nibble)
  /-- row 11, `8xy2` -/
  | setVxToVxAndVy (x y : Nibble)
  /-- row 12, `8xy3` -/
  | setVxToVxXorVy (x y : Nibble)
  /-- row 13, `8xy4` -/
  | addVyToVxWithCarry (x y : Nibble)
  /-- row 14, `8xy5` -/
  | subtractVyFromVxWithBorrow (x y : Nibble)
  /-- row 15, `8xy6` -/
  | shiftVxRightByOne (x y : Nibble)
  /-- row 16, `8xy7` -/
  | setVxToVyMinusVx (x y : Nibble)
  /-- row 17, `8xyE` -/
  | shiftVxLeftByOne (x y : Nibble)
  /-- row 18, `9xy0` -/
  | skipIfVxNotEqualsVy (x y : Nibble)
  /-- row 19, `Annn` -/
  | setIToAddress (nnn : Addr)
  /-- row 20, `Bnnn` -/
  | jumpToAddressPlusV0 (nnn : Addr)
  /-- row 21, `Cxkk` -/
  | setVxToRandomAndByte (x : Nibble) (kk : Byte)
  /-- row 22, `Dxyn` -/
  | drawSprite (x y n : Nibble)
  /-- row 23, `Ex9E` -/
  | skipIfKeyVxPressed (x : Nibble)
  /-- row 24, `ExA1` -/
  | skipIfKeyVxNotPressed (x : Nibble)
  /-- row 25, `Fx07` -/
  | setVxToDelayTimer (x : Nibble)
  /-- row 26, `Fx0A` -/
  | waitForKeyPressAndStoreInVx (x : Nibble)
  /-- row 27, `Fx15` -/
  | setDelayTimerToVx (x : Nibble)
  /-- row 28, `Fx18` -/
  | setSoundTimerToVx (x : Nibble)
  /-- row 29, `Fx1E` -/
  | addVxToI (x : Nibble)
  /-- row 30, `Fx29` -/
  | setIToSpriteAddressForDigitVx (x : Nibble)
  /-- row 31, `Fx33` -/
  | storeBcdOfVxAtI (x : Nibble)
  /-- row 32, `Fx55` -/
  | storeRegistersV0ThroughVxInMemory (x : Nibble)
  /-- row 33, `Fx65` -/
  | readRegistersV0ThroughVxFromMemory (x : Nibble)
  /-- row 34: every other opcode, carried whole (R71, R72) -/
  | invalid (op : Word)
deriving DecidableEq, Repr

end Sys2Proof
end

