-- ==== Sys2Proof/Decode.lean ====
section
/-! DEFINITION. The decoder of `spec/30_encoding.md` R65, the opcode map of R66 as a table of masks, the encoder of
R73, and the byte-level decoder. Opcode patterns other than `00E0` and `00EE` are the spec's own supply from general
knowledge (93 G1, log 21). -/

namespace Sys2Proof

/-! ## Fields (R62) -/

/-- Nibble 0, the family: `op[15:12]` (R61). -/
def fieldF (op : Word) : Nibble := op.extractLsb' 12 4

/-- `x`: `op[11:8]`. -/
def fieldX (op : Word) : Nibble := op.extractLsb' 8 4

/-- `y`: `op[7:4]`. -/
def fieldY (op : Word) : Nibble := op.extractLsb' 4 4

/-- `n`: `op[3:0]`. -/
def fieldN (op : Word) : Nibble := op.extractLsb' 0 4

/-- `kk`: `op[7:0]`. -/
def fieldKk (op : Word) : Byte := op.extractLsb' 0 8

/-- `nnn`: `op[11:0]`. -/
def fieldNnn (op : Word) : Addr := op.extractLsb' 0 12

/-! ## The decode algorithm (R65) -/

/-- Family 0x0: the whole opcode is matched (R68, `90_conflicts.md` C3). -/
def decodeFamily0 (op : Word) : Instr :=
  if op = 0x00E0#16 then .clearDisplay
  else if op = 0x00EE#16 then .returnFromSubroutine
  else .invalid op

/-- Family 0x8: nine ALU operations by low nibble (R69). -/
def decodeFamily8 (op : Word) : Instr :=
  match (fieldN op).toNat with
  | 0x0 => .setVxToVy (fieldX op) (fieldY op)
  | 0x1 => .setVxToVxOrVy (fieldX op) (fieldY op)
  | 0x2 => .setVxToVxAndVy (fieldX op) (fieldY op)
  | 0x3 => .setVxToVxXorVy (fieldX op) (fieldY op)
  | 0x4 => .addVyToVxWithCarry (fieldX op) (fieldY op)
  | 0x5 => .subtractVyFromVxWithBorrow (fieldX op) (fieldY op)
  | 0x6 => .shiftVxRightByOne (fieldX op) (fieldY op)
  | 0x7 => .setVxToVyMinusVx (fieldX op) (fieldY op)
  | 0xE => .shiftVxLeftByOne (fieldX op) (fieldY op)
  | _ => .invalid op

/-- Family 0xE: two selectors in the low byte (R70). -/
def decodeFamilyE (op : Word) : Instr :=
  match (fieldKk op).toNat with
  | 0x9E => .skipIfKeyVxPressed (fieldX op)
  | 0xA1 => .skipIfKeyVxNotPressed (fieldX op)
  | _ => .invalid op

/-- Family 0xF: nine selectors in the low byte (R70). -/
def decodeFamilyF (op : Word) : Instr :=
  match (fieldKk op).toNat with
  | 0x07 => .setVxToDelayTimer (fieldX op)
  | 0x0A => .waitForKeyPressAndStoreInVx (fieldX op)
  | 0x15 => .setDelayTimerToVx (fieldX op)
  | 0x18 => .setSoundTimerToVx (fieldX op)
  | 0x1E => .addVxToI (fieldX op)
  | 0x29 => .setIToSpriteAddressForDigitVx (fieldX op)
  | 0x33 => .storeBcdOfVxAtI (fieldX op)
  | 0x55 => .storeRegistersV0ThroughVxInMemory (fieldX op)
  | 0x65 => .readRegistersV0ThroughVxFromMemory (fieldX op)
  | _ => .invalid op

/-- `Decode` (R64, R65): total and pure. -/
def decode (op : Word) : Instr :=
  match (fieldF op).toNat with
  | 0x0 => decodeFamily0 op
  | 0x1 => .jumpToAddress (fieldNnn op)
  | 0x2 => .callSubroutine (fieldNnn op)
  | 0x3 => .skipIfVxEqualsByte (fieldX op) (fieldKk op)
  | 0x4 => .skipIfVxNotEqualsByte (fieldX op) (fieldKk op)
  | 0x5 => if fieldN op = 0#4 then .skipIfVxEqualsVy (fieldX op) (fieldY op) else .invalid op
  | 0x6 => .setVxToByte (fieldX op) (fieldKk op)
  | 0x7 => .addByteToVx (fieldX op) (fieldKk op)
  | 0x8 => decodeFamily8 op
  | 0x9 => if fieldN op = 0#4 then .skipIfVxNotEqualsVy (fieldX op) (fieldY op) else .invalid op
  | 0xA => .setIToAddress (fieldNnn op)
  | 0xB => .jumpToAddressPlusV0 (fieldNnn op)
  | 0xC => .setVxToRandomAndByte (fieldX op) (fieldKk op)
  | 0xD => .drawSprite (fieldX op) (fieldY op) (fieldN op)
  | 0xE => decodeFamilyE op
  | _ => decodeFamilyF op

/-! ## Bytes (R43, R60) -/

/-- The opcode whose more significant byte is `hi` (R43). -/
def wordOfBytes (hi lo : Byte) : Word := hi ++ lo

/-- The byte stored at the lower address (R43). -/
def highByte (w : Word) : Byte := w.extractLsb' 8 8

/-- The byte stored at the higher address (R43). -/
def lowByte (w : Word) : Byte := w.extractLsb' 0 8

/-- Why a byte string holds no instruction. -/
inductive DecodeError where
  /-- Fewer than two bytes: an opcode is two bytes long (R60). -/
  | truncated
deriving DecidableEq, Repr

/-- Decode the instruction at the head of a byte string and give back the rest. -/
def decodeBytes : List Byte → Except DecodeError (Instr × List Byte)
  | hi :: lo :: rest => .ok (decode (wordOfBytes hi lo), rest)
  | _ => .error .truncated

/-- The opcode whose bits, numbered as `spec/opcode_table.json` numbers them, are the `nbits` low bits of `w`. -/
def tableWord (nbits w : Nat) : Word := BitVec.ofNat 16 (w % 2 ^ nbits)

/-- The instruction the decoder reads from the two bytes of the table word `w`. -/
def decodeTableWord (nbits w : Nat) : Option Instr :=
  match decodeBytes [highByte (tableWord nbits w), lowByte (tableWord nbits w)] with
  | .ok (i, _) => some i
  | .error _ => none

/-! ## The encoder (R73) -/

/-- `Encode` (R73): the fields written back into the pattern of the row of R66. -/
def encode : Instr → Word
  | .clearDisplay => 0x00E0#16
  | .returnFromSubroutine => 0x00EE#16
  | .jumpToAddress nnn => 0x1#4 ++ nnn
  | .callSubroutine nnn => 0x2#4 ++ nnn
  | .skipIfVxEqualsByte x kk => 0x3#4 ++ x ++ kk
  | .skipIfVxNotEqualsByte x kk => 0x4#4 ++ x ++ kk
  | .skipIfVxEqualsVy x y => 0x5#4 ++ x ++ y ++ 0x0#4
  | .setVxToByte x kk => 0x6#4 ++ x ++ kk
  | .addByteToVx x kk => 0x7#4 ++ x ++ kk
  | .setVxToVy x y => 0x8#4 ++ x ++ y ++ 0x0#4
  | .setVxToVxOrVy x y => 0x8#4 ++ x ++ y ++ 0x1#4
  | .setVxToVxAndVy x y => 0x8#4 ++ x ++ y ++ 0x2#4
  | .setVxToVxXorVy x y => 0x8#4 ++ x ++ y ++ 0x3#4
  | .addVyToVxWithCarry x y => 0x8#4 ++ x ++ y ++ 0x4#4
  | .subtractVyFromVxWithBorrow x y => 0x8#4 ++ x ++ y ++ 0x5#4
  | .shiftVxRightByOne x y => 0x8#4 ++ x ++ y ++ 0x6#4
  | .setVxToVyMinusVx x y => 0x8#4 ++ x ++ y ++ 0x7#4
  | .shiftVxLeftByOne x y => 0x8#4 ++ x ++ y ++ 0xE#4
  | .skipIfVxNotEqualsVy x y => 0x9#4 ++ x ++ y ++ 0x0#4
  | .setIToAddress nnn => 0xA#4 ++ nnn
  | .jumpToAddressPlusV0 nnn => 0xB#4 ++ nnn
  | .setVxToRandomAndByte x kk => 0xC#4 ++ x ++ kk
  | .drawSprite x y n => 0xD#4 ++ x ++ y ++ n
  | .skipIfKeyVxPressed x => 0xE#4 ++ x ++ 0x9E#8
  | .skipIfKeyVxNotPressed x => 0xE#4 ++ x ++ 0xA1#8
  | .setVxToDelayTimer x => 0xF#4 ++ x ++ 0x07#8
  | .waitForKeyPressAndStoreInVx x => 0xF#4 ++ x ++ 0x0A#8
  | .setDelayTimerToVx x => 0xF#4 ++ x ++ 0x15#8
  | .setSoundTimerToVx x => 0xF#4 ++ x ++ 0x18#8
  | .addVxToI x => 0xF#4 ++ x ++ 0x1E#8
  | .setIToSpriteAddressForDigitVx x => 0xF#4 ++ x ++ 0x29#8
  | .storeBcdOfVxAtI x => 0xF#4 ++ x ++ 0x33#8
  | .storeRegistersV0ThroughVxInMemory x => 0xF#4 ++ x ++ 0x55#8
  | .readRegistersV0ThroughVxFromMemory x => 0xF#4 ++ x ++ 0x65#8
  | .invalid op => op

/-! ## The opcode map as masks (R66) -/

/-- One row of R66: an opcode selects it when `op and mask = pattern`. -/
structure OpcodeRow where
  pattern : Word
  mask : Word
deriving DecidableEq, Repr

/-- Rows 0 to 17 of R66. -/
def opcodeRowsLow : List OpcodeRow :=
  [⟨0x00E0, 0xFFFF⟩, ⟨0x00EE, 0xFFFF⟩, ⟨0x1000, 0xF000⟩, ⟨0x2000, 0xF000⟩, ⟨0x3000, 0xF000⟩, ⟨0x4000, 0xF000⟩,
   ⟨0x5000, 0xF00F⟩, ⟨0x6000, 0xF000⟩, ⟨0x7000, 0xF000⟩, ⟨0x8000, 0xF00F⟩, ⟨0x8001, 0xF00F⟩, ⟨0x8002, 0xF00F⟩,
   ⟨0x8003, 0xF00F⟩, ⟨0x8004, 0xF00F⟩, ⟨0x8005, 0xF00F⟩, ⟨0x8006, 0xF00F⟩, ⟨0x8007, 0xF00F⟩, ⟨0x800E, 0xF00F⟩]

/-- Rows 18 to 33 of R66. -/
def opcodeRowsHigh : List OpcodeRow :=
  [⟨0x9000, 0xF00F⟩, ⟨0xA000, 0xF000⟩, ⟨0xB000, 0xF000⟩, ⟨0xC000, 0xF000⟩, ⟨0xD000, 0xF000⟩, ⟨0xE09E, 0xF0FF⟩,
   ⟨0xE0A1, 0xF0FF⟩, ⟨0xF007, 0xF0FF⟩, ⟨0xF00A, 0xF0FF⟩, ⟨0xF015, 0xF0FF⟩, ⟨0xF018, 0xF0FF⟩, ⟨0xF01E, 0xF0FF⟩,
   ⟨0xF029, 0xF0FF⟩, ⟨0xF033, 0xF0FF⟩, ⟨0xF055, 0xF0FF⟩, ⟨0xF065, 0xF0FF⟩]

/-- The 34 concrete rows of R66, in its order. -/
def opcodeRows : List OpcodeRow := opcodeRowsLow ++ opcodeRowsHigh

/-- Whether `op` selects the row (R66). -/
def rowSelects (op : Word) (r : OpcodeRow) : Bool := op &&& r.mask == r.pattern

/-- Whether `op` selects one of the 34 concrete rows. -/
def isConcreteOpcode (op : Word) : Bool := opcodeRows.any (rowSelects op)

/-- The number of an instruction's row in R66: the `tag` of R72. -/
def instrTag : Instr → Nat
  | .clearDisplay => 0
  | .returnFromSubroutine => 1
  | .jumpToAddress _ => 2
  | .callSubroutine _ => 3
  | .skipIfVxEqualsByte _ _ => 4
  | .skipIfVxNotEqualsByte _ _ => 5
  | .skipIfVxEqualsVy _ _ => 6
  | .setVxToByte _ _ => 7
  | .addByteToVx _ _ => 8
  | .setVxToVy _ _ => 9
  | .setVxToVxOrVy _ _ => 10
  | .setVxToVxAndVy _ _ => 11
  | .setVxToVxXorVy _ _ => 12
  | .addVyToVxWithCarry _ _ => 13
  | .subtractVyFromVxWithBorrow _ _ => 14
  | .shiftVxRightByOne _ _ => 15
  | .setVxToVyMinusVx _ _ => 16
  | .shiftVxLeftByOne _ _ => 17
  | .skipIfVxNotEqualsVy _ _ => 18
  | .setIToAddress _ => 19
  | .jumpToAddressPlusV0 _ => 20
  | .setVxToRandomAndByte _ _ => 21
  | .drawSprite _ _ _ => 22
  | .skipIfKeyVxPressed _ => 23
  | .skipIfKeyVxNotPressed _ => 24
  | .setVxToDelayTimer _ => 25
  | .waitForKeyPressAndStoreInVx _ => 26
  | .setDelayTimerToVx _ => 27
  | .setSoundTimerToVx _ => 28
  | .addVxToI _ => 29
  | .setIToSpriteAddressForDigitVx _ => 30
  | .storeBcdOfVxAtI _ => 31
  | .storeRegistersV0ThroughVxInMemory _ => 32
  | .readRegistersV0ThroughVxFromMemory _ => 33
  | .invalid _ => 34

/-- The decoder's output bundle of R72: the tag, the operand slices (always driven) and the raw opcode. -/
structure DecodedBundle where
  tag : BitVec 6
  x : Nibble
  y : Nibble
  n : Nibble
  kk : Byte
  nnn : Addr
  raw : Word
deriving DecidableEq, Repr

/-- What the decoder drives on its output port for `op` (R72). -/
def decodeBundle (op : Word) : DecodedBundle :=
  ⟨BitVec.ofNat 6 (instrTag (decode op)), fieldX op, fieldY op, fieldN op, fieldKk op, fieldNnn op, op⟩

end Sys2Proof
end

