-- ==== Sys2Proof/Config.lean ====
section
/-! DEFINITION. What is fixed for the machine (`spec/00_scope.md` R6), the moves it can make
(`spec/46_cycle_and_scheduler.md` R132, R140, R146 to R149, `spec/70_reset_and_hazards.md` R193) and the two free
values: the random byte and the order of the moves. -/

namespace Sys2Proof

/-- `NREGS` (R6): the number of general registers. -/
abbrev Config.numRegs : Nat := 16

/-- `MEM_SIZE` (R6): bytes of Memory, at addresses 0 to 4095. -/
abbrev Config.memSize : Nat := 4096

/-- `PROG_BASE` (R6): the reset value of `PC` and the conventional load address. -/
abbrev Config.progBase : Nat := 0x200

/-- `STACK_DEPTH` (R6): how many return addresses the call stack holds. -/
abbrev Config.stackDepth : Nat := 16

/-- `DISP_W` (R6): columns of the display. -/
abbrev Config.dispW : Nat := 64

/-- `DISP_H` (R6): rows of the display. -/
abbrev Config.dispH : Nat := 32

/-- `NKEYS` (R6): keys of the Input Latch. -/
abbrev Config.numKeys : Nat := 16

/-- One atomic move of the machine (R132, R140, R144, R146 to R149) or of the ROM loader (R193). -/
inductive Move where
  /-- A grant to the instruction cadence (R132). -/
  | instrIteration
  /-- A grant to the timer cadence (R140). -/
  | timerTick
  /-- The input source presses key `k` (R146). -/
  | setKey (k : Nibble)
  /-- The input source releases key `k` (R147). -/
  | clearKey (k : Nibble)
  /-- The renderer reads the grid and the dirty flag (R148). -/
  | readDisplay
  /-- The renderer clears the dirty flag (R149). -/
  | clearDirty
  /-- The ROM loader copies `bytes` to Memory at `addr`, before the run (R193). -/
  | loadRom (bytes : List Byte) (addr : Nat)
deriving DecidableEq, Repr, Inhabited

/-- FREE VALUE (log 3): the byte that draw number `n` of `SetVxToRandomAndByte` yields. It has no body, so nothing
can be proved of it: R117 "any value 0 .. 255, fresh for this execution". -/
opaque Config.draw8 (n : Nat) : Byte

/-- FREE VALUE (log 1): the move that comes next when no granted move is listed in the state, the `n`-th such
choice. R144 leaves the order of iterations, ticks and host moves open ("a model must admit both orders") and R153
leaves the whole interleaving unconstrained. -/
opaque Config.arbiter (n : Nat) : Move

end Sys2Proof
end

