-- ==== Sys2Proof/Machine/Params.lean ====
section
/-! DEFINITION. The parameters of `spec/00_scope.md` R6 that have a default (`FONT_BASE`, `FONT_DATA`), and what a
byte of Memory that nothing has written reads as. -/

namespace Sys2Proof.Machine

/-- `FONT_BASE` (R6, R41), default 0x050 (log 5). -/
def fontBase : Nat := 0x050

/-- `GLYPH_BYTES` (R6). -/
def glyphBytes : Nat := 5

/-- Glyphs 0 to 7 of R47. -/
def fontLow : List Byte :=
  [0xF0, 0x90, 0x90, 0x90, 0xF0, 0x20, 0x60, 0x20, 0x20, 0x70] ++
  [0xF0, 0x10, 0xF0, 0x80, 0xF0, 0xF0, 0x10, 0xF0, 0x10, 0xF0] ++
  [0x90, 0x90, 0xF0, 0x10, 0x10, 0xF0, 0x80, 0xF0, 0x10, 0xF0] ++
  [0xF0, 0x80, 0xF0, 0x90, 0xF0, 0xF0, 0x10, 0x20, 0x40, 0x40]

/-- Glyphs 8 to F of R47. -/
def fontHigh : List Byte :=
  [0xF0, 0x90, 0xF0, 0x90, 0xF0, 0xF0, 0x90, 0xF0, 0x10, 0xF0] ++
  [0xF0, 0x90, 0xF0, 0x90, 0x90, 0xE0, 0x90, 0xE0, 0x90, 0xE0] ++
  [0xF0, 0x80, 0x80, 0x80, 0xF0, 0xE0, 0x90, 0x90, 0x90, 0xE0] ++
  [0xF0, 0x80, 0xF0, 0x80, 0xF0, 0xF0, 0x80, 0xF0, 0x80, 0x80]

/-- `FONT_DATA` (R6, R47): the standard font, which the spec supplies from general knowledge (93 G6, log 5). -/
def fontData : List Byte := fontLow ++ fontHigh

/-- What an address nothing has written reads as: its reset content (R37, R41): the font at `FONT_BASE`, zero
elsewhere (log 4). -/
def unlistedByte (a : Nat) : Byte :=
  if fontBase ≤ a then fontData.getD (a - fontBase) 0#8 else 0#8

end Sys2Proof.Machine
end

