-- ==== Sys2Proof/Machine/State.lean ====
section
/-! DEFINITION. The state of the core (`spec/10_state.md`), the reasons a step can stop, and the state after reset
(`spec/10_state.md` R37, `spec/70_reset_and_hazards.md` R190). -/

namespace Sys2Proof.Machine

/-- `V[0..15]` (R11). -/
abbrev RegFile := Vector Byte Config.numRegs

/-- `disp[y][x]` (R21): rows of pixels, row 0 first, column 0 first in a row. -/
abbrev Display := Vector (Vector Bool Config.dispW) Config.dispH

/-- `key[0..15]` (R23), true = down. -/
abbrev Keys := Vector Bool Config.numKeys

/-- `stack[0..15]` (R16). -/
abbrev Stack := Vector Word Config.stackDepth

/-- `mem[0..4095]` (R20) as the cells that differ from what an unlisted address reads as. -/
abbrev Memory := List Host.Cell

/-- The canonical form: addresses strictly rising and inside the address space, no cell equal to what an unlisted
address reads as. -/
abbrev Memory.wf (m : Memory) : Prop :=
  m.Pairwise (fun c d => c.1 < d.1) ∧ ∀ c ∈ m, c.1 < Config.memSize ∧ c.2 ≠ unlistedByte c.1

/-- The wait state (R19). -/
inductive Wait where
  /-- The engine runs instructions. -/
  | running
  /-- The engine waits for a key, to be stored in `V[r]`. -/
  | waitingForKey (r : Nibble)
deriving DecidableEq, Repr

/-- The fatal faults of `spec/60_exceptions.md` R160, each with the info R160 records. All are SAFE: the machine of
the spec stops as well (R163), and nothing can be proved of what it holds afterwards. -/
inductive Fault where
  /-- Raised by `CallSubroutine` when 16 addresses are held (R82); code 1. Safe: the hardware stops too. -/
  | stackOverflow (op pc : Word)
  /-- Raised by `ReturnFromSubroutine` when none is held (R80); code 2. Safe: the hardware stops too. -/
  | stackUnderflow (op pc : Word)
  /-- Raised by a byte access above 4095 (R42): by fetch (`op = none`), `DrawSprite`, `StoreBcdOfVxAtI` and the two
  block transfers; code 3. Safe: the hardware stops too. -/
  | memOutOfRange (addr : Nat) (op : Option Word) (pc : Word)
  /-- Raised by a `LoadRom` that does not fit (R193); code 4. Safe: the hardware stops too. -/
  | loadOutOfRange (addr len : Nat)
deriving DecidableEq, Repr

/-- Why a step has no meaning. -/
inductive Refusal where
  /-- An instruction without a meaning, by its mnemonic: raised by no arm of `exec`. Safe. -/
  | notModelled (mnemonic : String)
  /-- Raised by a `LoadRom` move granted after the load, after the start of the run or after a fault: R193 allows it
  "once, after reset and before the run starts" and 93 K23 asks to refuse. Safe: the spec has no such move. -/
  | loadNotAllowed
deriving DecidableEq, Repr

/-- What the core sends on its output ports (R31, R33, R35). -/
inductive Event where
  /-- `Diag(op)`: an `Invalid` opcode was executed (R35, R130). -/
  | diag (op : Word)
  /-- `FaultDiag`: the fault latch was set (R35, R160). -/
  | faultDiag (f : Fault)
  /-- `redraw_request` (R33, R141). -/
  | redrawRequest
  /-- What `ReadDisplay` returned (R31, R148). -/
  | frame (disp : Display) (dirty : Bool)
deriving DecidableEq, Repr

/-- Every piece of state the spec gives the core, and the model's own bookkeeping below it. -/
structure State where
  /-- `V[0..15]`, `VF` = `V[15]` (R11, R12). -/
  v : RegFile
  /-- `I` (R14). -/
  i : Word
  /-- `PC` (R15). -/
  pc : Word
  /-- `SP`, the depth of the stack, 0 to 16 (R17). -/
  sp : Fin 17
  /-- `stack[0..15]` (R16); entries at or above `SP` are stale (R17). -/
  stack : Stack
  /-- `DT` (R18). -/
  dt : Byte
  /-- `ST` (R18). -/
  st : Byte
  /-- `wait` (R19). -/
  wait : Wait
  /-- `mem` (R20). -/
  mem : Memory
  /-- `disp` (R21). -/
  disp : Display
  /-- `dirty` (R22). -/
  dirty : Bool
  /-- `key` (R23). -/
  key : Keys
  /-- The fault latch (R27). -/
  fault : Option Fault
  /-- The tone latch (R28). -/
  tone : Bool
  /-- MODEL: whether the one `LoadRom` of R193 is still allowed (log 14). -/
  loadOpen : Bool
  /-- MODEL: the events sent on the output ports, the newest first (log 13). -/
  events : List Event
  /-- MODEL: the moves already granted, the next one first (log 1). -/
  agenda : List Move
  /-- MODEL: how many moves were taken from `Config.arbiter` (log 1). -/
  grants : Nat
  /-- MODEL: how many bytes were drawn from `Config.draw8` (log 3). -/
  draws : Nat
deriving DecidableEq, Repr

/-- The display with every pixel 0. -/
def blankDisplay : Display := Vector.replicate Config.dispH (Vector.replicate Config.dispW false)

/-- The state after reset: the table of R37 (R190). The font is what unlisted addresses read as. The fields marked
MODEL in `State` are the model's (log 1, 3, 13, 14). -/
def State.reset : State where
  v := Vector.replicate Config.numRegs 0#8
  i := 0#16
  pc := BitVec.ofNat 16 Config.progBase
  sp := 0
  stack := Vector.replicate Config.stackDepth 0#16
  dt := 0#8
  st := 0#8
  wait := .running
  mem := []
  disp := blankDisplay
  dirty := false
  key := Vector.replicate Config.numKeys false
  fault := none
  tone := false
  loadOpen := true
  events := []
  agenda := []
  grants := 0
  draws := 0

end Sys2Proof.Machine
end

