-- ==== Sys2Proof/Machine/Ops.lean ====
section
/-! DEFINITION. The named operations over memory, registers, stack and display, the updates of one piece of state,
and taking a fatal fault (`spec/60_exceptions.md` R163), the only exception this machine has (R169). -/

namespace Sys2Proof.Machine

/-! ## Memory (`spec/20_memory.md`) -/

/-- The byte at `a`. -/
def memRead : Memory → Nat → Byte
  | [], a => unlistedByte a
  | (b, w) :: rest, a => if b = a then w else memRead rest a

/-- `mem[a] <- w`, keeping the canonical form. -/
def memWrite : Memory → Nat → Byte → Memory
  | [], a, w => if w = unlistedByte a then [] else [(a, w)]
  | (b, u) :: rest, a, w =>
    if a < b then (if w = unlistedByte a then (b, u) :: rest else (a, w) :: (b, u) :: rest)
    else if a = b then (if w = unlistedByte a then rest else (a, w) :: rest)
    else (b, u) :: memWrite rest a w

/-- `MemRead(addr, 1)`: the byte, or the offending address (R42). -/
def readByte (m : Memory) (a : Nat) : Except Nat Byte :=
  if a < Config.memSize then .ok (memRead m a) else .error a

/-- `MemWrite(addr, 1, w)`: the memory after, or the offending address (R42). -/
def writeByte (m : Memory) (a : Nat) (w : Byte) : Except Nat Memory :=
  if a < Config.memSize then .ok (memWrite m a w) else .error a

/-- Read `n` bytes at `a, a+1, ...` in ascending order; the first address out of range is the error (R49). -/
def readBytes (m : Memory) (a : Nat) : Nat → Except Nat (List Byte)
  | 0 => .ok []
  | n + 1 =>
    match readByte m a with
    | .error e => .error e
    | .ok b =>
      match readBytes m (a + 1) n with
      | .error e => .error e
      | .ok bs => .ok (b :: bs)

/-- Write bytes at `a, a+1, ...` in ascending order; the first address out of range is the error (R49). -/
def writeBytes (m : Memory) (a : Nat) : List Byte → Except Nat Memory
  | [] => .ok m
  | b :: bs =>
    match writeByte m a b with
    | .error e => .error e
    | .ok m' => writeBytes m' (a + 1) bs

/-- Copy bytes to `a, a+1, ...` with no range check: for a range already checked (R193). -/
def copyBytes (m : Memory) (a : Nat) : List Byte → Memory
  | [] => m
  | b :: bs => copyBytes (memWrite m a b) (a + 1) bs

/-! ## One update for each piece of state -/

/-- All general registers. -/
def State.setV (v : RegFile) (s : State) : State := { s with v := v }

/-- `V[x] <- b` (R11). -/
def State.setReg (x : Nibble) (b : Byte) (s : State) : State := { s with v := s.v.set x.toNat b x.isLt }

/-- `VF <- b` (R12). -/
def State.setVF (b : Byte) (s : State) : State := s.setReg 15#4 b

/-- `I <- a` (R14). -/
def State.setI (a : Word) (s : State) : State := { s with i := a }

/-- `PC <- a` (R15). -/
def State.setPc (a : Word) (s : State) : State := { s with pc := a }

/-- `PC <- PC + 2` (R88). -/
def State.nextPc (s : State) : State := s.setPc (s.pc + 2#16)

/-- `PC <- PC + 4` where the condition holds, `PC <- PC + 2` where it does not (R88). -/
def State.skipIf (c : Bool) (s : State) : State := s.setPc (if c then s.pc + 4#16 else s.pc + 2#16)

/-- The call stack and its depth (R16, R17). -/
def State.setStack (k : Stack) (d : Fin 17) (s : State) : State := { s with stack := k, sp := d }

/-- `DT <- b` (R18). -/
def State.setDt (b : Byte) (s : State) : State := { s with dt := b }

/-- `ST <- b` (R18). -/
def State.setSt (b : Byte) (s : State) : State := { s with st := b }

/-- `wait <- w` (R19). -/
def State.setWait (w : Wait) (s : State) : State := { s with wait := w }

/-- The whole memory. -/
def State.setMem (m : Memory) (s : State) : State := { s with mem := m }

/-- The grid (R21). -/
def State.setDisp (d : Display) (s : State) : State := { s with disp := d }

/-- `dirty <- b` (R22). -/
def State.setDirty (b : Bool) (s : State) : State := { s with dirty := b }

/-- `key[k] <- b` (R23). -/
def State.setKeyTo (k : Nibble) (b : Bool) (s : State) : State := { s with key := s.key.set k.toNat b k.isLt }

/-- `tone <- b` (R28). -/
def State.setTone (b : Bool) (s : State) : State := { s with tone := b }

/-- Send an event on its port (R31, R33, R35). -/
def State.emit (e : Event) (s : State) : State := { s with events := e :: s.events }

/-- Close the load port (R193). -/
def State.closeLoad (s : State) : State := { s with loadOpen := false }

/-- Count one random draw (log 3). -/
def State.countDraw (s : State) : State := { s with draws := s.draws + 1 }

/-- Take the next granted move off the agenda or, where it is empty, count one choice of the arbiter (log 1). -/
def State.takeGrant (s : State) : State :=
  match s.agenda with
  | [] => { s with grants := s.grants + 1 }
  | _ :: rest => { s with agenda := rest }

/-! ## The call stack (R16) -/

/-- Push a return address; `none` when 16 are held. -/
def State.push (a : Word) (s : State) : Option State :=
  if h : s.sp.val < Config.stackDepth then
    some (s.setStack (s.stack.set s.sp.val a h) ⟨s.sp.val + 1, Nat.succ_lt_succ h⟩)
  else none

/-- Pop a return address; `none` when none is held. The popped slot keeps its old content (R80). -/
def State.pop (s : State) : Option (Word × State) :=
  if s.sp.val = 0 then none
  else
    some (s.stack[s.sp.val - 1]'(by have := s.sp.isLt; show s.sp.val - 1 < 16; omega),
      s.setStack s.stack ⟨s.sp.val - 1, Nat.lt_of_le_of_lt (Nat.sub_le _ _) s.sp.isLt⟩)

/-! ## Faults (`spec/60_exceptions.md`) -/

/-- `raise Fault`: the step that faults ends with the fault (R163, 93 K2). -/
def raiseFault (f : Fault) : Host.Outcome State Fault Refusal := .fault f

/-- The fault of a data access at `a` by instruction `i` (R160). -/
def raiseMemFault (i : Instr) (a : Nat) (s : State) : Host.Outcome State Fault Refusal :=
  raiseFault (.memOutOfRange a (some (encode i)) s.pc)

/-- What a fault leaves behind: the latch set once and for all, one `FaultDiag` (R27, R35, R163). R164 leaves the
rest unspecified; the model leaves it as it was before the step (log 2). -/
def latchFault (f : Fault) (s : State) : State :=
  match s.fault with
  | some _ => s
  | none => { s with fault := some f, events := .faultDiag f :: s.events }

/-- The code of a fault on the fault output (R160); 0 is no fault. -/
def faultCode : Option Fault → BitVec 3
  | none => 0#3
  | some (.stackOverflow _ _) => 1#3
  | some (.stackUnderflow _ _) => 2#3
  | some (.memOutOfRange _ _ _) => 3#3
  | some (.loadOutOfRange _ _) => 4#3

/-! ## The display (R21, `spec/43_display_random.md` R118) -/

/-- `disp[py][px]`. -/
def pixel (d : Display) (px : Fin 64) (py : Fin 32) : Bool := (d[py.val]'py.isLt)[px.val]'px.isLt

/-- `disp[py][px] <- b`. -/
def setPixel (d : Display) (px : Fin 64) (py : Fin 32) (b : Bool) : Display :=
  d.set py.val ((d[py.val]'py.isLt).set px.val b px.isLt) py.isLt

/-- The column of sprite bit `bit` (R118). -/
def spriteColumn (cx : Byte) (bit : Nat) : Fin 64 := Fin.ofNat 64 (cx.toNat + bit)

/-- The row of sprite row `row` (R118). -/
def spriteRow (cy : Byte) (row : Nat) : Fin 32 := Fin.ofNat 32 (cy.toNat + row)

/-- A draw in progress: the grid and the two running values of R116. -/
structure Plot where
  disp : Display
  collision : Bool
  plotted : Bool
deriving DecidableEq, Repr

/-- XOR-plot one pixel (R116). -/
def plotPixel (px : Fin 64) (py : Fin 32) (p : Plot) : Plot where
  disp := setPixel p.disp px py (!pixel p.disp px py)
  collision := p.collision || pixel p.disp px py
  plotted := true

/-- One sprite bit: plot it if it is 1, else leave everything alone (R116, "MSB first"). -/
def plotBit (cx cy : Byte) (row : Nat) (b : Byte) (p : Plot) (bit : Nat) : Plot :=
  if b.getLsbD (7 - bit) then plotPixel (spriteColumn cx bit) (spriteRow cy row) p else p

/-- One sprite row: bits 0 to 7 ascending (R116). -/
def plotRow (cx cy : Byte) (row : Nat) (b : Byte) (p : Plot) : Plot :=
  [0, 1, 2, 3, 4, 5, 6, 7].foldl (plotBit cx cy row b) p

/-- The sprite rows from `row` on (R116). -/
def plotRows (cx cy : Byte) : Nat → List Byte → Plot → Plot
  | _, [], p => p
  | row, b :: bs, p => plotRows cx cy (row + 1) bs (plotRow cx cy row b p)

/-- The whole sprite on the grid `d` (R116). -/
def drawSpriteOn (d : Display) (cx cy : Byte) (rows : List Byte) : Plot :=
  plotRows cx cy 0 rows ⟨d, false, false⟩

end Sys2Proof.Machine
end

