-- ==== Sys2Proof/Machine/Operands.lean ====
section
/-! DEFINITION. Every operand form of the instruction set: registers (`spec/10_state.md` R11), the low nibble of a
register (`spec/44_input_timers.md` R126, `spec/42_index_memory.md` R107), zero-extended immediates and addresses
(`spec/30_encoding.md` R63), the one addressing mode (`spec/42_index_memory.md` R108), keys and digits. -/

namespace Sys2Proof.Machine

/-- `V[x]` (R11). -/
def State.reg (s : State) (x : Nibble) : Byte := s.v[x.toNat]'x.isLt

/-- `zext_16(nnn)` (R63). -/
def addrWord (nnn : Addr) : Word := nnn.setWidth 16

/-- `zext_16(b)` (R8). -/
def byteWord (b : Byte) : Word := b.setWidth 16

/-- `b[3:0]`. -/
def lowNibble (b : Byte) : Nibble := b.extractLsb' 0 4

/-- The key the register value `b` selects: its low nibble (R126, 93 K5, log 8). -/
def keyIndexOf (b : Byte) : Nibble := lowNibble b

/-- The digit the register value `b` names: its low nibble (R107, 93 K6, log 8). -/
def fontDigitOf (b : Byte) : Nibble := lowNibble b

/-- The address of the glyph of digit `d` (R107). -/
def glyphAddress (d : Nibble) : Word := BitVec.ofNat 16 (fontBase + glyphBytes * d.toNat)

/-- `key[k]` (R23). -/
def State.keyDown (s : State) (k : Nibble) : Bool := s.key[k.toNat]'k.isLt

/-- The key a wait resolution reports: the least index that is down, none where no key is (R137, 93 K8, log 10). -/
def keyPick (keys : Keys) : Option Nibble := (keys.toList.findIdx? (· == true)).map (BitVec.ofNat 4)

/-- `EA(k) = I + k`, a natural number that never wraps (R108, R48). -/
def effectiveAddress (s : State) (k : Nat) : Nat := s.i.toNat + k

/-- The number of registers in `V0..Vx` (R110, R111: the inclusive range). -/
def blockLength (x : Nibble) : Nat := x.toNat + 1

/-- The bytes `V[0], ..., V[x]` (R110). -/
def State.regBlock (s : State) (x : Nibble) : List Byte := s.v.toList.take (blockLength x)

/-- `V[k], V[k+1], ... <- bytes` (R111). -/
def loadRegs (v : RegFile) : Nat → List Byte → RegFile
  | _, [] => v
  | k, b :: bs => loadRegs (v.setIfInBounds k b) (k + 1) bs

/-- Hundreds, tens and ones of `b` (R109). -/
def bcdDigits (b : Byte) : List Byte :=
  [BitVec.ofNat 8 (b.toNat / 100), BitVec.ofNat 8 (b.toNat / 10 % 10), BitVec.ofNat 8 (b.toNat % 10)]

end Sys2Proof.Machine
end

