-- ==== Sys2Proof/Machine/Flags.lean ====
section
/-! DEFINITION. Every flag computation: what the six instructions of `spec/10_state.md` R12 put into `VF`, the order
of result and flag (R13), the timers' countdown (`spec/46_cycle_and_scheduler.md` R140) and the tone level (R136). -/

namespace Sys2Proof.Machine

/-- A flag as the byte `VF` receives: 1 or 0 (R12). -/
def flagByte (c : Bool) : Byte := if c then 1#8 else 0#8

/-- Carry out of an 8-bit addition (R96). -/
def carryOut (a b : Byte) : Bool := decide (a.toNat + b.toNat > 255)

/-- No borrow in `a - b` (R97, R99). -/
def noBorrow (a b : Byte) : Bool := decide (a.toNat ≥ b.toNat)

/-- The bit a right shift by one puts out (R98). -/
def shiftedOutRight (b : Byte) : Bool := b.getLsbD 0

/-- The bit a left shift by one puts out (R100). -/
def shiftedOutLeft (b : Byte) : Bool := b.getLsbD 7

/-- `V[x] <- r`, then `VF <- c`: the flag last, so that with `x = 15` the flag survives (R13, log 7). -/
def State.setResultAndFlag (x : Nibble) (r : Byte) (c : Bool) (s : State) : State :=
  (s.setReg x r).setVF (flagByte c)

/-- One step of a countdown that stops at 0 (R18, R140). -/
def countDown (t : Byte) : Byte := if t = 0#8 then 0#8 else t - 1#8

/-- The level the tone latch is loaded with: `ST != 0` (R136). -/
def toneLevel (s : State) : Bool := s.st != 0#8

end Sys2Proof.Machine
end

