-- ==== Sys2Proof/Machine/DisplayRandom.lean ====
section
/-! DEFINITION. Display and random: `spec/43_display_random.md` R115 to R119. -/

namespace Sys2Proof.Machine

/-- R115: `dirty` is set also when the display was already clear (log 11). -/
def execClearDisplay (s : State) : Host.Outcome State Fault Refusal :=
  .next ((s.setDisp blankDisplay).setDirty true).nextPc

/-- R116: `V[x]` and `V[y]` are sampled before `VF` is written. -/
def execDrawSprite (x y n : Nibble) (s : State) : Host.Outcome State Fault Refusal :=
  match readBytes s.mem (effectiveAddress s 0) n.toNat with
  | .error a => raiseMemFault (.drawSprite x y n) a s
  | .ok rows =>
    let p := drawSpriteOn s.disp (s.reg x) (s.reg y) rows
    .next (((s.setDisp p.disp).setDirty (s.dirty || p.plotted)).setVF (flagByte p.collision)).nextPc

/-- R117: the draw is a free value (log 3). -/
def execSetVxToRandomAndByte (x : Nibble) (kk : Byte) (s : State) : Host.Outcome State Fault Refusal :=
  .next (s.countDraw.setReg x (Config.draw8 s.draws &&& kk)).nextPc

end Sys2Proof.Machine
end

