-- ==== Sys2Proof/Machine/Flow.lean ====
section
/-! DEFINITION. Control transfer: `spec/40_flow.md` R80 to R89. -/

namespace Sys2Proof.Machine

/-- R80. -/
def execReturnFromSubroutine (s : State) : Host.Outcome State Fault Refusal :=
  match s.pop with
  | none => raiseFault (.stackUnderflow (encode .returnFromSubroutine) s.pc)
  | some (a, t) => .next (t.setPc a)

/-- R81. -/
def execJumpToAddress (nnn : Addr) (s : State) : Host.Outcome State Fault Refusal :=
  .next (s.setPc (addrWord nnn))

/-- R82. -/
def execCallSubroutine (nnn : Addr) (s : State) : Host.Outcome State Fault Refusal :=
  match s.push (s.pc + 2#16) with
  | none => raiseFault (.stackOverflow (encode (.callSubroutine nnn)) s.pc)
  | some t => .next (t.setPc (addrWord nnn))

/-- R83: the offset register is always `V[0]` (log 19). -/
def execJumpToAddressPlusV0 (nnn : Addr) (s : State) : Host.Outcome State Fault Refusal :=
  .next (s.setPc (addrWord nnn + byteWord (s.reg 0#4)))

/-- R84. -/
def execSkipIfVxEqualsByte (x : Nibble) (kk : Byte) (s : State) : Host.Outcome State Fault Refusal :=
  .next (s.skipIf (s.reg x == kk))

/-- R85. -/
def execSkipIfVxNotEqualsByte (x : Nibble) (kk : Byte) (s : State) : Host.Outcome State Fault Refusal :=
  .next (s.skipIf (s.reg x != kk))

/-- R86. -/
def execSkipIfVxEqualsVy (x y : Nibble) (s : State) : Host.Outcome State Fault Refusal :=
  .next (s.skipIf (s.reg x == s.reg y))

/-- R87. -/
def execSkipIfVxNotEqualsVy (x y : Nibble) (s : State) : Host.Outcome State Fault Refusal :=
  .next (s.skipIf (s.reg x != s.reg y))

end Sys2Proof.Machine
end

