-- ==== Sys2Proof/Machine/IndexMemory.lean ====
section
/-! DEFINITION. The address register and memory transfer: `spec/42_index_memory.md` R105 to R112. -/

namespace Sys2Proof.Machine

/-- R105. -/
def execSetIToAddress (nnn : Addr) (s : State) : Host.Outcome State Fault Refusal :=
  .next (s.setI (addrWord nnn)).nextPc

/-- R106: 16-bit wrap, `VF` untouched (log 9). -/
def execAddVxToI (x : Nibble) (s : State) : Host.Outcome State Fault Refusal :=
  .next (s.setI (s.i + byteWord (s.reg x))).nextPc

/-- R107. -/
def execSetIToSpriteAddressForDigitVx (x : Nibble) (s : State) : Host.Outcome State Fault Refusal :=
  .next (s.setI (glyphAddress (fontDigitOf (s.reg x)))).nextPc

/-- R109. -/
def execStoreBcdOfVxAtI (x : Nibble) (s : State) : Host.Outcome State Fault Refusal :=
  match writeBytes s.mem (effectiveAddress s 0) (bcdDigits (s.reg x)) with
  | .error a => raiseMemFault (.storeBcdOfVxAtI x) a s
  | .ok m => .next (s.setMem m).nextPc

/-- R110; `I` unchanged (R112, log 19). -/
def execStoreRegistersV0ThroughVxInMemory (x : Nibble) (s : State) : Host.Outcome State Fault Refusal :=
  match writeBytes s.mem (effectiveAddress s 0) (s.regBlock x) with
  | .error a => raiseMemFault (.storeRegistersV0ThroughVxInMemory x) a s
  | .ok m => .next (s.setMem m).nextPc

/-- R111; `I` unchanged (R112, log 19). -/
def execReadRegistersV0ThroughVxFromMemory (x : Nibble) (s : State) : Host.Outcome State Fault Refusal :=
  match readBytes s.mem (effectiveAddress s 0) (blockLength x) with
  | .error a => raiseMemFault (.readRegistersV0ThroughVxFromMemory x) a s
  | .ok bs => .next (s.setV (loadRegs s.v 0 bs)).nextPc

end Sys2Proof.Machine
end

