-- ==== Sys2Proof/Machine/InputTimers.lean ====
section
/-! DEFINITION. Keys, wait-for-key and timer access: `spec/44_input_timers.md` R120 to R126. -/

namespace Sys2Proof.Machine

/-- R120. -/
def execSkipIfKeyVxPressed (x : Nibble) (s : State) : Host.Outcome State Fault Refusal :=
  .next (s.skipIf (s.keyDown (keyIndexOf (s.reg x))))

/-- R121. -/
def execSkipIfKeyVxNotPressed (x : Nibble) (s : State) : Host.Outcome State Fault Refusal :=
  .next (s.skipIf (!s.keyDown (keyIndexOf (s.reg x))))

/-- R122: only enters the wait; `PC` stays. -/
def execWaitForKeyPressAndStoreInVx (x : Nibble) (s : State) : Host.Outcome State Fault Refusal :=
  .next (s.setWait (.waitingForKey x))

/-- R123. -/
def execSetVxToDelayTimer (x : Nibble) (s : State) : Host.Outcome State Fault Refusal :=
  .next (s.setReg x s.dt).nextPc

/-- R124. -/
def execSetDelayTimerToVx (x : Nibble) (s : State) : Host.Outcome State Fault Refusal :=
  .next (s.setDt (s.reg x)).nextPc

/-- R125; the tone follows at the end of the cycle (R136). -/
def execSetSoundTimerToVx (x : Nibble) (s : State) : Host.Outcome State Fault Refusal :=
  .next (s.setSt (s.reg x)).nextPc

end Sys2Proof.Machine
end

