-- ==== Sys2Proof/Machine/InvalidOp.lean ====
section
/-! DEFINITION. The Invalid outcome: `spec/45_invalid.md` R130, R131. -/

namespace Sys2Proof.Machine

/-- R130: one diagnostic and `PC + 2`; not a fault, not a refusal (R131). -/
def execInvalid (op : Word) (s : State) : Host.Outcome State Fault Refusal :=
  .next (s.emit (.diag op)).nextPc

end Sys2Proof.Machine
end

