-- ==== Sys2Proof/Machine/LoadArith.lean ====
section
/-! DEFINITION. Register load and arithmetic: `spec/41_load_arith.md` R90 to R103. -/

namespace Sys2Proof.Machine

/-- R90. -/
def execSetVxToByte (x : Nibble) (kk : Byte) (s : State) : Host.Outcome State Fault Refusal :=
  .next (s.setReg x kk).nextPc

/-- R91: no flag, whatever the sum. -/
def execAddByteToVx (x : Nibble) (kk : Byte) (s : State) : Host.Outcome State Fault Refusal :=
  .next (s.setReg x (s.reg x + kk)).nextPc

/-- R92. -/
def execSetVxToVy (x y : Nibble) (s : State) : Host.Outcome State Fault Refusal :=
  .next (s.setReg x (s.reg y)).nextPc

/-- R93; `VF` untouched (R102, log 19). -/
def execSetVxToVxOrVy (x y : Nibble) (s : State) : Host.Outcome State Fault Refusal :=
  .next (s.setReg x (s.reg x ||| s.reg y)).nextPc

/-- R94; `VF` untouched (R102, log 19). -/
def execSetVxToVxAndVy (x y : Nibble) (s : State) : Host.Outcome State Fault Refusal :=
  .next (s.setReg x (s.reg x &&& s.reg y)).nextPc

/-- R95; `VF` untouched (R102, log 19). -/
def execSetVxToVxXorVy (x y : Nibble) (s : State) : Host.Outcome State Fault Refusal :=
  .next (s.setReg x (s.reg x ^^^ s.reg y)).nextPc

/-- R96. -/
def execAddVyToVxWithCarry (x y : Nibble) (s : State) : Host.Outcome State Fault Refusal :=
  .next (s.setResultAndFlag x (s.reg x + s.reg y) (carryOut (s.reg x) (s.reg y))).nextPc

/-- R97. -/
def execSubtractVyFromVxWithBorrow (x y : Nibble) (s : State) : Host.Outcome State Fault Refusal :=
  .next (s.setResultAndFlag x (s.reg x - s.reg y) (noBorrow (s.reg x) (s.reg y))).nextPc

/-- R98: the source is `V[y]` (log 19). -/
def execShiftVxRightByOne (x y : Nibble) (s : State) : Host.Outcome State Fault Refusal :=
  .next (s.setResultAndFlag x (s.reg y >>> 1) (shiftedOutRight (s.reg y))).nextPc

/-- R99. -/
def execSetVxToVyMinusVx (x y : Nibble) (s : State) : Host.Outcome State Fault Refusal :=
  .next (s.setResultAndFlag x (s.reg y - s.reg x) (noBorrow (s.reg y) (s.reg x))).nextPc

/-- R100: the source is `V[y]` (log 19). -/
def execShiftVxLeftByOne (x y : Nibble) (s : State) : Host.Outcome State Fault Refusal :=
  .next (s.setResultAndFlag x (s.reg y <<< 1) (shiftedOutLeft (s.reg y))).nextPc

end Sys2Proof.Machine
end

