-- ==== Sys2Proof/Machine/Dispatch.lean ====
section
/-! DEFINITION. `Execute(ins)` (`spec/46_cycle_and_scheduler.md` R134): one arm for each constructor, no default arm. -/

namespace Sys2Proof.Machine

def exec (i : Instr) (s : State) : Host.Outcome State Fault Refusal :=
  match i with
  | .clearDisplay => Sys2Proof.Machine.execClearDisplay s
  | .returnFromSubroutine => Sys2Proof.Machine.execReturnFromSubroutine s
  | .jumpToAddress nnn => Sys2Proof.Machine.execJumpToAddress nnn s
  | .callSubroutine nnn => Sys2Proof.Machine.execCallSubroutine nnn s
  | .skipIfVxEqualsByte x kk => Sys2Proof.Machine.execSkipIfVxEqualsByte x kk s
  | .skipIfVxNotEqualsByte x kk => Sys2Proof.Machine.execSkipIfVxNotEqualsByte x kk s
  | .skipIfVxEqualsVy x y => Sys2Proof.Machine.execSkipIfVxEqualsVy x y s
  | .setVxToByte x kk => Sys2Proof.Machine.execSetVxToByte x kk s
  | .addByteToVx x kk => Sys2Proof.Machine.execAddByteToVx x kk s
  | .setVxToVy x y => Sys2Proof.Machine.execSetVxToVy x y s
  | .setVxToVxOrVy x y => Sys2Proof.Machine.execSetVxToVxOrVy x y s
  | .setVxToVxAndVy x y => Sys2Proof.Machine.execSetVxToVxAndVy x y s
  | .setVxToVxXorVy x y => Sys2Proof.Machine.execSetVxToVxXorVy x y s
  | .addVyToVxWithCarry x y => Sys2Proof.Machine.execAddVyToVxWithCarry x y s
  | .subtractVyFromVxWithBorrow x y => Sys2Proof.Machine.execSubtractVyFromVxWithBorrow x y s
  | .shiftVxRightByOne x y => Sys2Proof.Machine.execShiftVxRightByOne x y s
  | .setVxToVyMinusVx x y => Sys2Proof.Machine.execSetVxToVyMinusVx x y s
  | .shiftVxLeftByOne x y => Sys2Proof.Machine.execShiftVxLeftByOne x y s
  | .skipIfVxNotEqualsVy x y => Sys2Proof.Machine.execSkipIfVxNotEqualsVy x y s
  | .setIToAddress nnn => Sys2Proof.Machine.execSetIToAddress nnn s
  | .jumpToAddressPlusV0 nnn => Sys2Proof.Machine.execJumpToAddressPlusV0 nnn s
  | .setVxToRandomAndByte x kk => Sys2Proof.Machine.execSetVxToRandomAndByte x kk s
  | .drawSprite x y n => Sys2Proof.Machine.execDrawSprite x y n s
  | .skipIfKeyVxPressed x => Sys2Proof.Machine.execSkipIfKeyVxPressed x s
  | .skipIfKeyVxNotPressed x => Sys2Proof.Machine.execSkipIfKeyVxNotPressed x s
  | .setVxToDelayTimer x => Sys2Proof.Machine.execSetVxToDelayTimer x s
  | .waitForKeyPressAndStoreInVx x => Sys2Proof.Machine.execWaitForKeyPressAndStoreInVx x s
  | .setDelayTimerToVx x => Sys2Proof.Machine.execSetDelayTimerToVx x s
  | .setSoundTimerToVx x => Sys2Proof.Machine.execSetSoundTimerToVx x s
  | .addVxToI x => Sys2Proof.Machine.execAddVxToI x s
  | .setIToSpriteAddressForDigitVx x => Sys2Proof.Machine.execSetIToSpriteAddressForDigitVx x s
  | .storeBcdOfVxAtI x => Sys2Proof.Machine.execStoreBcdOfVxAtI x s
  | .storeRegistersV0ThroughVxInMemory x => Sys2Proof.Machine.execStoreRegistersV0ThroughVxInMemory x s
  | .readRegistersV0ThroughVxFromMemory x => Sys2Proof.Machine.execReadRegistersV0ThroughVxFromMemory x s
  | .invalid op => Sys2Proof.Machine.execInvalid op s

end Sys2Proof.Machine
end

