-- ==== Sys2Proof/Machine/Cycle.lean ====
section
/-! DEFINITION. The moves around the instructions (`spec/46_cycle_and_scheduler.md`): the cycle, the wait poll, the
timer tick, the host moves, the ROM load (`spec/70_reset_and_hazards.md` R193) and which move comes next. -/

namespace Sys2Proof.Machine

/-! ## The instruction-loop iteration -/

/-- `Fetch(PC) = MemRead(PC, 2)`, big-endian: the opcode, or the offending address (R43, R44). -/
def fetch (s : State) : Except Nat Word :=
  match readByte s.mem s.pc.toNat with
  | .error a => .error a
  | .ok hi =>
    match readByte s.mem (s.pc.toNat + 1) with
    | .error a => .error a
    | .ok lo => .ok (wordOfBytes hi lo)

/-- The end of a cycle that did not fault: `tone <- (ST != 0)` (R136). -/
def refreshTone (s : State) : State := s.setTone (toneLevel s)

/-- One cycle: fetch, decode, execute, refresh the tone latch (R133). -/
def cycle (s : State) : Host.Outcome State Fault Refusal :=
  match fetch s with
  | .error a => raiseFault (.memOutOfRange a none s.pc)
  | .ok op =>
    match exec (decode op) s with
    | .next t => .next (refreshTone t)
    | .fault f => .fault f
    | .refused r => .refused r

/-- One poll of the keys while waiting to store one in `V[r]` (R137, R138). -/
def waitPoll (r : Nibble) (s : State) : State :=
  match keyPick s.key with
  | none => s
  | some k => ((s.setReg r (k.setWidth 8)).setWait .running).nextPc

/-- One instruction-loop iteration (R132). It starts the run, so no `LoadRom` follows it (R193). A stopped core takes
none: it stays stopped with the fault it holds (R163, log 2). -/
def instrIteration (s : State) : Host.Outcome State Fault Refusal :=
  match s.fault with
  | some f => .fault f
  | none =>
    match s.wait with
    | .waitingForKey r => .next (waitPoll r s.closeLoad)
    | .running => cycle s.closeLoad

/-! ## The timer tick -/

/-- Both timers count down, each on its own (R140). -/
def countTimers (s : State) : State := (s.setDt (countDown s.dt)).setSt (countDown s.st)

/-- The redraw request of a tick on which `dirty` is set (R141). -/
def signalRedraw (s : State) : State := if s.dirty then s.emit .redrawRequest else s

/-- One timer tick, in both wait states (R140, R141, R142). A stopped core takes none (R163). -/
def timerTick (s : State) : Host.Outcome State Fault Refusal :=
  match s.fault with
  | some f => .fault f
  | none => .next (signalRedraw (countTimers s.closeLoad))

/-! ## Host moves -/

/-- `SetKey(k)` (R146). -/
def hostSetKey (k : Nibble) (s : State) : State := s.setKeyTo k true

/-- `ClearKey(k)` (R147). -/
def hostClearKey (k : Nibble) (s : State) : State := s.setKeyTo k false

/-- `ReadDisplay`: returns `(disp, dirty)` and changes nothing of the core (R148, log 23). -/
def hostReadDisplay (s : State) : State := s.emit (.frame s.disp s.dirty)

/-- `ClearDirty` (R149). -/
def hostClearDirty (s : State) : State := s.setDirty false

/-- `LoadRom(bytes, addr)`: once, before the run, if it fits (R193, log 14). -/
def loadRom (bytes : List Byte) (addr : Nat) (s : State) : Host.Outcome State Fault Refusal :=
  if s.loadOpen && s.fault.isNone then
    if addr + bytes.length > Config.memSize then raiseFault (.loadOutOfRange addr bytes.length)
    else .next (((s.setMem (copyBytes s.mem addr bytes)).setPc (BitVec.ofNat 16 addr)).closeLoad)
  else .refused .loadNotAllowed

/-! ## The arbiter -/

/-- The move that comes next: the first granted one, else the arbiter's free choice (R144, R153, log 1). -/
def nextMove (s : State) : Move :=
  match s.agenda with
  | [] => Config.arbiter s.grants
  | m :: _ => m

/-- Make one move, alone and whole (R144). -/
def makeMove (m : Move) (s : State) : Host.Outcome State Fault Refusal :=
  match m with
  | .instrIteration => instrIteration s
  | .timerTick => timerTick s
  | .setKey k => .next (hostSetKey k s)
  | .clearKey k => .next (hostClearKey k s)
  | .readDisplay => .next (hostReadDisplay s)
  | .clearDirty => .next (hostClearDirty s)
  | .loadRom bytes addr => loadRom bytes addr s

/-- Grant the next move and make it. -/
def machineStep (s : State) : Host.Outcome State Fault Refusal := makeMove (nextMove s) s.takeGrant

/-- The state a step leaves behind, a stopped core's included: a fault is latched (R27, R163), a refused move has not
happened (93 K23). -/
def stateAfter (s : State) : State :=
  match machineStep s with
  | .next t => t
  | .fault f => latchFault f s.takeGrant
  | .refused _ => s.takeGrant

/-! ## Placing an instruction -/

/-- Where an instruction can be placed for the next fetch: at `PC`, or at `PROG_BASE` where `PC` cannot be fetched
from (R44). -/
def fetchablePc (s : State) : Word := if s.pc.toNat ≤ 4094 then s.pc else BitVec.ofNat 16 Config.progBase

/-- `s` with the opcode `op` stored where the next fetch reads, a core that runs, and an iteration granted next
(log 15). -/
def placeOpcode (s : State) (op : Word) : State :=
  { s with
    pc := fetchablePc s
    mem := copyBytes s.mem (fetchablePc s).toNat [highByte op, lowByte op]
    wait := .running
    fault := none
    agenda := .instrIteration :: s.agenda }

end Sys2Proof.Machine
end

