-- ==== Sys2Proof/Machine/Step.lean ====
section
/-! DEFINITION. One step of the machine (`spec/46_cycle_and_scheduler.md` R153), the life of a stopped machine, and
the host's placing of an instruction. -/

namespace Sys2Proof.Machine

/-- One step: the next move of the total order of R50, made alone and whole. -/
def step (s : State) : Host.Outcome State Fault Refusal := machineStep s

/-- The state after one step, also where the step faults: then the latch holds the fault, host moves go on and the
core does not (R163, R153). -/
def advance (s : State) : State := stateAfter s

/-- `s` with the instruction of the table word `w` where the next step fetches it. -/
def State.withFetchWord (s : State) (nbits w : Nat) : State := placeOpcode s (tableWord nbits w)

end Sys2Proof.Machine
end

