-- ==== Sys2Proof/Safety.lean ====
section
/-! DEFINITION. What counts as a safe run, and the words the statements use: the invariant of the machine, what two
states have in common, reachability and the fairness premise of `spec/46_cycle_and_scheduler.md` R153. -/

namespace Sys2Proof.Machine

/-! ## Safe states -/

/-- No fault has been raised. A state with a fault is a failure state, never a final one (R163). -/
abbrev State.live (s : State) : Prop := s.fault = none

/-- The invariant of the machine: the memory is in canonical form; `PC` is at most 0x10FE (R25); no stack entry is
above 4096 (R25); a waiting core was entered from a fetchable `PC` (R137 "PC <= 4094 because the FX0A was fetched from
it"); and a core whose load port is still open has not entered a wait (R193). -/
abbrev State.Inv (s : State) : Prop :=
  s.mem.wf ∧ s.pc.toNat ≤ 0x10FE ∧ (∀ k : Nibble, (s.stack[k.toNat]'k.isLt).toNat ≤ 4096) ∧
  (s.wait ≠ .running → s.pc.toNat ≤ 4094) ∧ (s.loadOpen = true → s.wait = .running)

/-- The states a run can be in: from reset, under any agenda, by steps of the machine, those of a stopped core
included. -/
inductive Reachable : State → Prop where
  | reset (agenda : List Move) : Reachable { State.reset with agenda := agenda }
  | step (s : State) : Reachable s → Reachable (advance s)

/-- The weak fairness R153 lets a model assume of the arbiter: each cadence is granted infinitely often. No definition
of the model uses it; a claim about progress takes it as a premise (log 16). -/
def FairArbiter (grant : Nat → Move) : Prop :=
  ∀ n, (∃ m, n ≤ m ∧ grant m = .instrIteration) ∧ (∃ m, n ≤ m ∧ grant m = .timerTick)

/-! ## What two states have in common (frames) -/

/-- Every general register, `VF` included. -/
abbrev sameRegs (s t : State) : Prop := ∀ k : Nibble, t.reg k = s.reg k

/-- Every address of memory reads the same. -/
abbrev sameMem (s t : State) : Prop := ∀ a : Nat, memRead t.mem a = memRead s.mem a

/-- The call stack and its depth. -/
abbrev sameStack (s t : State) : Prop := t.sp = s.sp ∧ t.stack = s.stack

/-- Both timers. -/
abbrev sameTimers (s t : State) : Prop := t.dt = s.dt ∧ t.st = s.st

/-- Every pixel and the dirty flag. -/
abbrev sameScreen (s t : State) : Prop := (∀ px py, pixel t.disp px py = pixel s.disp px py) ∧ t.dirty = s.dirty

/-- The wait state, the fault latch, the tone latch and the keys. -/
abbrev sameControl (s t : State) : Prop := t.wait = s.wait ∧ t.fault = s.fault ∧ t.tone = s.tone ∧ t.key = s.key

/-- The moves granted and the model's counters but for the random draws. -/
abbrev sameBooks (s t : State) : Prop := t.loadOpen = s.loadOpen ∧ t.agenda = s.agenda ∧ t.grants = s.grants

/-- The events sent and the random draws made. -/
abbrev sameOutputs (s t : State) : Prop := t.events = s.events ∧ t.draws = s.draws

/-- Everything but the general registers, `I` and `PC`. -/
abbrev sameBeyondRegs (s t : State) : Prop :=
  sameMem s t ∧ sameStack s t ∧ sameTimers s t ∧ sameScreen s t ∧ sameControl s t ∧ sameBooks s t ∧ sameOutputs s t

/-- A step takes exactly one grant: the head of the agenda or, where it is empty, one free choice of the arbiter. -/
abbrev takesOneGrant (s t : State) : Prop :=
  t.agenda = s.agenda.tail ∧ t.grants = s.grants + if s.agenda = [] then 1 else 0

/-! ## Conditions on a step -/

/-- The next step is an instruction-loop iteration of a running core that has not faulted: it runs one cycle (R132). -/
abbrev runsCycle (s : State) : Prop := nextMove s = .instrIteration ∧ s.fault = none ∧ s.wait = .running

/-- The step is a cycle that fetches and executes the instruction `i`. -/
abbrev executes (s : State) (i : Instr) : Prop :=
  runsCycle s ∧ s.pc.toNat ≤ 4094 ∧
    decode (wordOfBytes (memRead s.mem s.pc.toNat) (memRead s.mem (s.pc.toNat + 1))) = i

/-- The opcode in the two bytes at `PC` (R43). -/
def opcodeAtPc (s : State) : Word := wordOfBytes (memRead s.mem s.pc.toNat) (memRead s.mem (s.pc.toNat + 1))

/-- The state in which a granted cycle executes its instruction: the grant taken, the load port closed. -/
def cycleStart (s : State) : State := s.takeGrant.closeLoad

/-- The first address out of range in an access of several bytes from `a` that does not fit (R42, R49). -/
def firstOutOfRange (a : Nat) : Nat := if a > 4095 then a else 4096

/-- Whether `DrawSprite(x, y, n)` plots the pixel in column `px` and row `py`: some sprite bit that is 1 falls there
(R116, R118). -/
def spritePlots (s : State) (x y n : Nibble) (px : Fin 64) (py : Fin 32) : Prop :=
  ∃ row bit : Nat, row < n.toNat ∧ bit < 8 ∧ (memRead s.mem (effectiveAddress s row)).getLsbD (7 - bit) = true ∧
    px.val = ((s.reg x).toNat + bit) % 64 ∧ py.val = ((s.reg y).toNat + row) % 32

end Sys2Proof.Machine
end

