-- ==== Sys2Proof/WellFormed.lean ====
section
/-! DEFINITION. Which values of `Instr` are the decoding of an opcode (`spec/30_encoding.md` R72, R73). -/

namespace Sys2Proof

/-- Every value is well-formed but `Invalid(op)` with `op` in a concrete row of R66, which R73 calls junk of the
type. -/
def Instr.wellFormed : Instr → Bool
  | .invalid op => !isConcreteOpcode op
  | _ => true

end Sys2Proof
end

