-- ==== Sys2Proof/Certificates/Slice0/Obligations.lean ====
section
/-! DEFINITION. The statements for the provers, in the order of `OBLIGATIONS.json`. A statement of a result says that
`exec` answers a next state, what that state holds, and (its frame) that nothing else changed, in the words of
`Sys2Proof/Safety.lean`. -/

open Sys2Proof Sys2Proof.Machine

/-! ## Encoding (`spec/30_encoding.md`) -/

/-- O1. R73: re-encoding what was decoded gives the opcode back, what is decoded is well-formed, and decoding what was
encoded gives every well-formed instruction back, with every operand at every value. -/
def Obligations.EncodeDecodeRoundTrip : Prop :=
  (∀ op : Word, encode (decode op) = op ∧ (decode op).wellFormed = true) ∧
  (∀ i : Instr, i.wellFormed = true → decode (encode i) = i)

/-- O2. R65 against R66: the decode algorithm gives an opcode the instruction of row `k` exactly where row `k`'s mask
selects it (so the 34 rows are pairwise disjoint), and `Invalid(op)` exactly where no row does. -/
def Obligations.DecodeSelectsTheTableRow : Prop :=
  (∀ (op : Word) (k : Nat) (r : OpcodeRow), opcodeRows[k]? = some r →
    (rowSelects op r = true ↔ instrTag (decode op) = k)) ∧
  (∀ op : Word, decode op = .invalid op ↔ isConcreteOpcode op = false)

/-- O3. Words of `95_test_vectors.md` V1, at least one of each family of instructions. -/
def Obligations.SampleWordsDecode : Prop :=
  decode 0x00EE#16 = .returnFromSubroutine ∧ decode 0x2FFF#16 = .callSubroutine 0xFFF#12 ∧
  decode 0x3A7F#16 = .skipIfVxEqualsByte 10#4 0x7F#8 ∧ decode 0x7CFF#16 = .addByteToVx 12#4 0xFF#8 ∧
  decode 0x8AB5#16 = .subtractVyFromVxWithBorrow 10#4 11#4 ∧ decode 0x8ABE#16 = .shiftVxLeftByOne 10#4 11#4 ∧
  decode 0xA123#16 = .setIToAddress 0x123#12 ∧ decode 0xF355#16 = .storeRegistersV0ThroughVxInMemory 3#4 ∧
  decode 0xC30F#16 = .setVxToRandomAndByte 3#4 0x0F#8 ∧ decode 0xD125#16 = .drawSprite 1#4 2#4 5#4 ∧
  decode 0xE39E#16 = .skipIfKeyVxPressed 3#4 ∧ decode 0xF30A#16 = .waitForKeyPressAndStoreInVx 3#4 ∧
  decode 0x01E0#16 = .invalid 0x01E0#16 ∧ decode 0x5AB1#16 = .invalid 0x5AB1#16

/-! ## The cycle (`spec/46_cycle_and_scheduler.md`, `spec/20_memory.md`) -/

/-- O4. R43, R44 (decisions D2, D3, D10 of the spec, log 18): the fetch is big-endian and succeeds exactly when
`PC <= 4094`; otherwise the cycle faults with the first address out of range. That the fault records no opcode and `PC`
is R160's, the spec's decision D13 (log 22). -/
def Obligations.FetchSucceedsExactlyInRange : Prop :=
  ∀ s : State,
    (s.pc.toNat ≤ 4094 →
      fetch s = .ok (memRead s.mem s.pc.toNat ++ memRead s.mem (s.pc.toNat + 1) : Word)) ∧
    (s.pc.toNat = 4095 → fetch s = .error 4096 ∧ (runsCycle s → step s = .fault (.memOutOfRange 4096 none s.pc))) ∧
    (4096 ≤ s.pc.toNat →
      fetch s = .error s.pc.toNat ∧ (runsCycle s → step s = .fault (.memOutOfRange s.pc.toNat none s.pc)))

/-- O5. R132, R133, R136: a step that is a cycle is `exec` of the instruction decoded from the two bytes at `PC`, on
the state with the grant taken and the load port closed, followed by the refresh of the tone latch; a fault or a
refusal of `exec` is the step's. -/
def Obligations.StepRunsDecodedInstruction : Prop :=
  ∀ (s : State) (i : Instr), executes s i →
    (step s = match exec i (cycleStart s) with
      | .next t => .next { t with tone := decide (t.st ≠ 0#8) }
      | .fault f => .fault f
      | .refused r => .refused r) ∧
    cycleStart s = { s with
      loadOpen := false
      agenda := s.agenda.tail
      grants := s.grants + if s.agenda = [] then 1 else 0 }

/-- O6. The host's placing of an instruction (log 15): the next step is a cycle that executes the placed word. -/
def Obligations.PlacedWordRunsNext : Prop :=
  ∀ (s : State) (nbits w : Nat), s.mem.wf →
    executes (s.withFetchWord nbits w) (decode (BitVec.ofNat 16 (w % 2 ^ nbits))) ∧
    (s.withFetchWord nbits w).mem.wf

/-! ## Reset (`spec/10_state.md` R37) -/

/-- O7. R37's table. All values but `PC` and the font preload are the spec's own decision D4 (log 6). -/
def Obligations.ResetValues : Prop :=
  State.reset.pc = 0x200#16 ∧ (∀ k : Nibble, State.reset.reg k = 0#8) ∧ State.reset.i = 0#16 ∧
  State.reset.sp.val = 0 ∧ (∀ k : Nibble, State.reset.stack[k.toNat]'k.isLt = 0#16) ∧
  State.reset.dt = 0#8 ∧ State.reset.st = 0#8 ∧ State.reset.wait = .running ∧
  (∀ px py, pixel State.reset.disp px py = false) ∧ State.reset.dirty = false ∧
  (∀ k : Nibble, State.reset.keyDown k = false) ∧ State.reset.fault = none ∧ State.reset.tone = false ∧
  (∀ a : Nat, memRead State.reset.mem a = if 0x050 ≤ a ∧ a < 0x0A0 then fontData.getD (a - 0x050) 0#8 else 0#8)

/-- O8. R47, R192: glyphs 0, A and F of the preloaded font (its bytes are the spec's from general knowledge, log 5). -/
def Obligations.ResetFontGlyphs : Prop :=
  [0x050, 0x051, 0x052, 0x053, 0x054].map (memRead State.reset.mem) = [0xF0#8, 0x90#8, 0x90#8, 0x90#8, 0xF0#8] ∧
  [0x082, 0x083, 0x084, 0x085, 0x086].map (memRead State.reset.mem) = [0xF0#8, 0x90#8, 0xF0#8, 0x90#8, 0x90#8] ∧
  [0x09B, 0x09C, 0x09D, 0x09E, 0x09F].map (memRead State.reset.mem) = [0xF0#8, 0x80#8, 0xF0#8, 0x80#8, 0x80#8]

/-! ## Control transfer (`spec/40_flow.md`) -/

/-- O9. R81, R83: the jumps assign `PC` and change nothing else; the indexed sum is not reduced modulo 4096. -/
def Obligations.JumpsAssignPc : Prop :=
  (∀ nnn : Addr, decode (0x1#4 ++ nnn : Word) = .jumpToAddress nnn ∧
    decode (0xB#4 ++ nnn : Word) = .jumpToAddressPlusV0 nnn) ∧
  ∀ (nnn : Addr) (s : State),
    (∃ t, exec (.jumpToAddress nnn) s = .next t ∧ t.pc.toNat = nnn.toNat ∧
      sameRegs s t ∧ t.i = s.i ∧ sameBeyondRegs s t) ∧
    (∃ t, exec (.jumpToAddressPlusV0 nnn) s = .next t ∧ t.pc.toNat = nnn.toNat + (s.reg 0#4).toNat ∧
      sameRegs s t ∧ t.i = s.i ∧ sameBeyondRegs s t)

/-- O10. R82: a call with fewer than 16 addresses held pushes `PC + 2` and jumps; with 16 held it faults. That the fault
records its opcode and `PC` is R160's, the spec's decision D13 (log 22). -/
def Obligations.CallPushesReturnAddress : Prop :=
  (∀ nnn : Addr, decode (0x2#4 ++ nnn : Word) = .callSubroutine nnn) ∧
  ∀ (nnn : Addr) (s : State),
    (s.sp.val < 16 → ∃ t, exec (.callSubroutine nnn) s = .next t ∧ t.pc.toNat = nnn.toNat ∧
      t.sp.val = s.sp.val + 1 ∧
      (∀ k : Nibble, t.stack[k.toNat]'k.isLt = if k.toNat = s.sp.val then s.pc + 2#16 else s.stack[k.toNat]'k.isLt) ∧
      sameRegs s t ∧ t.i = s.i ∧ sameMem s t ∧ sameTimers s t ∧ sameScreen s t ∧ sameControl s t ∧ sameBooks s t ∧
      sameOutputs s t) ∧
    (s.sp.val = 16 → exec (.callSubroutine nnn) s = .fault (.stackOverflow (0x2#4 ++ nnn) s.pc))

/-- O11. R80: a return pops the last address into `PC`, as it is; with none held it faults. That the fault records its
opcode and `PC` is R160's, the spec's decision D13 (log 22). -/
def Obligations.ReturnPopsReturnAddress : Prop :=
  decode 0x00EE#16 = .returnFromSubroutine ∧
  ∀ s : State,
    (0 < s.sp.val → ∃ t, exec .returnFromSubroutine s = .next t ∧ s.stack[s.sp.val - 1]? = some t.pc ∧
      t.sp.val = s.sp.val - 1 ∧ t.stack = s.stack ∧
      sameRegs s t ∧ t.i = s.i ∧ sameMem s t ∧ sameTimers s t ∧ sameScreen s t ∧ sameControl s t ∧ sameBooks s t ∧
      sameOutputs s t) ∧
    (s.sp.val = 0 → exec .returnFromSubroutine s = .fault (.stackUnderflow 0x00EE#16 s.pc))

/-- O12. Source example S6: a call and then a return come back to the instruction after the call, at the old depth. -/
def Obligations.CallThenReturnComesBack : Prop :=
  ∀ (nnn : Addr) (s : State), s.sp.val < 16 →
    ∃ t u, exec (.callSubroutine nnn) s = .next t ∧ exec .returnFromSubroutine t = .next u ∧
      u.pc = s.pc + 2#16 ∧ u.sp = s.sp ∧
      (∀ k : Nibble, k.toNat < s.sp.val → u.stack[k.toNat]'k.isLt = s.stack[k.toNat]'k.isLt) ∧
      sameRegs s u ∧ u.i = s.i ∧ sameMem s u ∧ sameScreen s u

/-- O13. R84 to R87: the four register skips. -/
def Obligations.RegisterSkips : Prop :=
  (∀ (x : Nibble) (kk : Byte), decode (0x3#4 ++ x ++ kk : Word) = .skipIfVxEqualsByte x kk ∧
    decode (0x4#4 ++ x ++ kk : Word) = .skipIfVxNotEqualsByte x kk) ∧
  (∀ x y : Nibble, decode (0x5#4 ++ x ++ y ++ 0x0#4 : Word) = .skipIfVxEqualsVy x y ∧
    decode (0x9#4 ++ x ++ y ++ 0x0#4 : Word) = .skipIfVxNotEqualsVy x y) ∧
  ∀ (x y : Nibble) (kk : Byte) (s : State),
    (∃ t, exec (.skipIfVxEqualsByte x kk) s = .next t ∧
      t.pc = (if s.reg x = kk then s.pc + 4#16 else s.pc + 2#16) ∧ sameRegs s t ∧ t.i = s.i ∧ sameBeyondRegs s t) ∧
    (∃ t, exec (.skipIfVxNotEqualsByte x kk) s = .next t ∧
      t.pc = (if s.reg x ≠ kk then s.pc + 4#16 else s.pc + 2#16) ∧ sameRegs s t ∧ t.i = s.i ∧ sameBeyondRegs s t) ∧
    (∃ t, exec (.skipIfVxEqualsVy x y) s = .next t ∧
      t.pc = (if s.reg x = s.reg y then s.pc + 4#16 else s.pc + 2#16) ∧ sameRegs s t ∧ t.i = s.i ∧
      sameBeyondRegs s t) ∧
    (∃ t, exec (.skipIfVxNotEqualsVy x y) s = .next t ∧
      t.pc = (if s.reg x ≠ s.reg y then s.pc + 4#16 else s.pc + 2#16) ∧ sameRegs s t ∧ t.i = s.i ∧
      sameBeyondRegs s t)

/-! ## Register load and arithmetic (`spec/41_load_arith.md`) -/

/-- O14. R90, R91, R92: the load of a byte, the add of a byte (modulo 256, no flag) and the copy of a register. -/
def Obligations.LoadCopyAndAddByte : Prop :=
  (∀ (x : Nibble) (kk : Byte), decode (0x6#4 ++ x ++ kk : Word) = .setVxToByte x kk ∧
    decode (0x7#4 ++ x ++ kk : Word) = .addByteToVx x kk) ∧
  (∀ x y : Nibble, decode (0x8#4 ++ x ++ y ++ 0x0#4 : Word) = .setVxToVy x y) ∧
  ∀ (x y : Nibble) (kk : Byte) (s : State),
    (∃ t, exec (.setVxToByte x kk) s = .next t ∧ (∀ k, t.reg k = if k = x then kk else s.reg k) ∧
      t.pc = s.pc + 2#16 ∧ t.i = s.i ∧ sameBeyondRegs s t) ∧
    (∃ t, exec (.addByteToVx x kk) s = .next t ∧
      (t.reg x).toNat = ((s.reg x).toNat + kk.toNat) % 256 ∧ (∀ k, k ≠ x → t.reg k = s.reg k) ∧
      t.pc = s.pc + 2#16 ∧ t.i = s.i ∧ sameBeyondRegs s t) ∧
    (∃ t, exec (.setVxToVy x y) s = .next t ∧ (∀ k, t.reg k = if k = x then s.reg y else s.reg k) ∧
      t.pc = s.pc + 2#16 ∧ t.i = s.i ∧ sameBeyondRegs s t)

/-- O15. OR, AND, XOR bit by bit; `VF` is written only as the named destination (the spec's decision D29, log 19). -/
def Obligations.BitwiseOperations : Prop :=
  ∀ (x y : Nibble) (s : State),
    (∃ t, exec (.setVxToVxOrVy x y) s = .next t ∧
      (∀ j < 8, (t.reg x).getLsbD j = ((s.reg x).getLsbD j || (s.reg y).getLsbD j)) ∧
      (∀ k, k ≠ x → t.reg k = s.reg k) ∧ t.pc = s.pc + 2#16 ∧ t.i = s.i ∧ sameBeyondRegs s t) ∧
    (∃ t, exec (.setVxToVxAndVy x y) s = .next t ∧
      (∀ j < 8, (t.reg x).getLsbD j = ((s.reg x).getLsbD j && (s.reg y).getLsbD j)) ∧
      (∀ k, k ≠ x → t.reg k = s.reg k) ∧ t.pc = s.pc + 2#16 ∧ t.i = s.i ∧ sameBeyondRegs s t) ∧
    (∃ t, exec (.setVxToVxXorVy x y) s = .next t ∧
      (∀ j < 8, (t.reg x).getLsbD j = xor ((s.reg x).getLsbD j) ((s.reg y).getLsbD j)) ∧
      (∀ k, k ≠ x → t.reg k = s.reg k) ∧ t.pc = s.pc + 2#16 ∧ t.i = s.i ∧ sameBeyondRegs s t)

/-- O16. The add with carry: `VF` is the carry and `V[x]` the sum modulo 256; where `x = 15` the flag survives (the
spec's decision D6, log 7). -/
def Obligations.AddWithCarry : Prop :=
  ∀ (x y : Nibble) (s : State), ∃ t, exec (.addVyToVxWithCarry x y) s = .next t ∧
    t.reg 15#4 = (if (s.reg x).toNat + (s.reg y).toNat > 255 then 1#8 else 0#8) ∧
    (x ≠ 15#4 → (t.reg x).toNat = ((s.reg x).toNat + (s.reg y).toNat) % 256) ∧
    (∀ k, k ≠ x → k ≠ 15#4 → t.reg k = s.reg k) ∧ t.pc = s.pc + 2#16 ∧ t.i = s.i ∧ sameBeyondRegs s t

/-- O17. The two subtractions: `VF` is 1 exactly where there is no borrow; where `x = 15` the flag survives (D6). -/
def Obligations.SubtractionsSetNotBorrow : Prop :=
  ∀ (x y : Nibble) (s : State),
    (∃ t, exec (.subtractVyFromVxWithBorrow x y) s = .next t ∧
      t.reg 15#4 = (if (s.reg x).toNat ≥ (s.reg y).toNat then 1#8 else 0#8) ∧
      (x ≠ 15#4 → ((t.reg x).toNat : Int) = ((s.reg x).toNat - (s.reg y).toNat : Int) % 256) ∧
      (∀ k, k ≠ x → k ≠ 15#4 → t.reg k = s.reg k) ∧ t.pc = s.pc + 2#16 ∧ t.i = s.i ∧ sameBeyondRegs s t) ∧
    (∃ t, exec (.setVxToVyMinusVx x y) s = .next t ∧
      t.reg 15#4 = (if (s.reg y).toNat ≥ (s.reg x).toNat then 1#8 else 0#8) ∧
      (x ≠ 15#4 → ((t.reg x).toNat : Int) = ((s.reg y).toNat - (s.reg x).toNat : Int) % 256) ∧
      (∀ k, k ≠ x → k ≠ 15#4 → t.reg k = s.reg k) ∧ t.pc = s.pc + 2#16 ∧ t.i = s.i ∧ sameBeyondRegs s t)

/-- O18. The two shifts: the source is `V[y]`, `VF` is the bit shifted out; where `x = 15` the flag survives (D6). -/
def Obligations.ShiftsPutBitIntoVF : Prop :=
  ∀ (x y : Nibble) (s : State),
    (∃ t, exec (.shiftVxRightByOne x y) s = .next t ∧
      (t.reg 15#4).toNat = (s.reg y).toNat % 2 ∧ (x ≠ 15#4 → (t.reg x).toNat = (s.reg y).toNat / 2) ∧
      (∀ k, k ≠ x → k ≠ 15#4 → t.reg k = s.reg k) ∧ t.pc = s.pc + 2#16 ∧ t.i = s.i ∧ sameBeyondRegs s t) ∧
    (∃ t, exec (.shiftVxLeftByOne x y) s = .next t ∧
      (t.reg 15#4).toNat = (s.reg y).toNat / 128 ∧ (x ≠ 15#4 → (t.reg x).toNat = (s.reg y).toNat * 2 % 256) ∧
      (∀ k, k ≠ x → k ≠ 15#4 → t.reg k = s.reg k) ∧ t.pc = s.pc + 2#16 ∧ t.i = s.i ∧ sameBeyondRegs s t)

/-! ## The address register and memory transfer (`spec/42_index_memory.md`) -/

/-- O19. R105: `I` takes the 12-bit address, zero-extended. -/
def Obligations.SetIToAddressLoadsI : Prop :=
  (∀ nnn : Addr, decode (0xA#4 ++ nnn : Word) = .setIToAddress nnn) ∧
  ∀ (nnn : Addr) (s : State), ∃ t, exec (.setIToAddress nnn) s = .next t ∧ t.i.toNat = nnn.toNat ∧
    t.pc = s.pc + 2#16 ∧ sameRegs s t ∧ sameBeyondRegs s t

/-- O20. `AddVxToI` wraps at 16 bits and leaves `VF` alone (the spec's decision D9, log 9); the glyph address uses the
low nibble of `V[x]` (decision D8, log 8). -/
def Obligations.IndexArithmetic : Prop :=
  ∀ (x : Nibble) (s : State),
    (∃ t, exec (.addVxToI x) s = .next t ∧ t.i.toNat = (s.i.toNat + (s.reg x).toNat) % 65536 ∧
      t.pc = s.pc + 2#16 ∧ sameRegs s t ∧ sameBeyondRegs s t) ∧
    (∃ t, exec (.setIToSpriteAddressForDigitVx x) s = .next t ∧
      t.i.toNat = 0x050 + 5 * ((s.reg x).toNat % 16) ∧ t.pc = s.pc + 2#16 ∧ sameRegs s t ∧ sameBeyondRegs s t)

/-- O21. R109: the three decimal digits go to `I`, `I+1`, `I+2`; past the end of memory the instruction faults at the
first byte out of range. That the fault records its opcode and `PC` is R160's, the spec's decision D13 (log 22). The
canonical form of the memory (log 4) is an invariant of the machine (O44). -/
def Obligations.BcdStore : Prop :=
  (∀ x : Nibble, decode (0xF#4 ++ x ++ 0x33#8 : Word) = .storeBcdOfVxAtI x) ∧
  ∀ (x : Nibble) (s : State), s.mem.wf →
    (s.i.toNat + 2 ≤ 4095 → ∃ t, exec (.storeBcdOfVxAtI x) s = .next t ∧
      (memRead t.mem (effectiveAddress s 0)).toNat = (s.reg x).toNat / 100 ∧
      (memRead t.mem (effectiveAddress s 1)).toNat = (s.reg x).toNat / 10 % 10 ∧
      (memRead t.mem (effectiveAddress s 2)).toNat = (s.reg x).toNat % 10 ∧
      (∀ a, ¬(effectiveAddress s 0 ≤ a ∧ a < effectiveAddress s 0 + 3) → memRead t.mem a = memRead s.mem a) ∧
      t.pc = s.pc + 2#16 ∧ t.i = s.i ∧ sameRegs s t ∧ sameStack s t ∧ sameTimers s t ∧ sameScreen s t ∧
      sameControl s t ∧ sameBooks s t ∧ sameOutputs s t) ∧
    (s.i.toNat + 2 > 4095 → exec (.storeBcdOfVxAtI x) s =
      .fault (.memOutOfRange (firstOutOfRange (effectiveAddress s 0)) (some (0xF#4 ++ x ++ 0x33#8)) s.pc))

/-- O22. R110: `V[0]` to `V[x]` go to `I` to `I+x`, `I` unchanged; past the end of memory the instruction faults at
the first byte out of range. That the fault records its opcode and `PC` is R160's, the spec's decision D13 (log 22). The
canonical form of the memory (log 4) is an invariant of the machine (O44). -/
def Obligations.RegisterBlockStore : Prop :=
  (∀ x : Nibble, decode (0xF#4 ++ x ++ 0x55#8 : Word) = .storeRegistersV0ThroughVxInMemory x) ∧
  ∀ (x : Nibble) (s : State), s.mem.wf →
    (s.i.toNat + x.toNat ≤ 4095 → ∃ t, exec (.storeRegistersV0ThroughVxInMemory x) s = .next t ∧
      (∀ k : Nibble, k.toNat ≤ x.toNat → memRead t.mem (effectiveAddress s k.toNat) = s.reg k) ∧
      (∀ a, ¬(effectiveAddress s 0 ≤ a ∧ a ≤ effectiveAddress s x.toNat) → memRead t.mem a = memRead s.mem a) ∧
      t.pc = s.pc + 2#16 ∧ t.i = s.i ∧ sameRegs s t ∧ sameStack s t ∧ sameTimers s t ∧ sameScreen s t ∧
      sameControl s t ∧ sameBooks s t ∧ sameOutputs s t) ∧
    (s.i.toNat + x.toNat > 4095 → exec (.storeRegistersV0ThroughVxInMemory x) s =
      .fault (.memOutOfRange (firstOutOfRange (effectiveAddress s 0)) (some (0xF#4 ++ x ++ 0x55#8)) s.pc))

/-- O23. R111: `V[0]` to `V[x]` are loaded from `I` to `I+x`, the registers above `x` and `I` unchanged; past the end
of memory the instruction faults at the first byte out of range. That the fault records its opcode and `PC` is R160's,
the spec's decision D13 (log 22). -/
def Obligations.RegisterBlockLoad : Prop :=
  (∀ x : Nibble, decode (0xF#4 ++ x ++ 0x65#8 : Word) = .readRegistersV0ThroughVxFromMemory x) ∧
  ∀ (x : Nibble) (s : State),
    (s.i.toNat + x.toNat ≤ 4095 → ∃ t, exec (.readRegistersV0ThroughVxFromMemory x) s = .next t ∧
      (∀ k : Nibble, t.reg k =
        if k.toNat ≤ x.toNat then memRead s.mem (effectiveAddress s k.toNat) else s.reg k) ∧
      t.pc = s.pc + 2#16 ∧ t.i = s.i ∧ sameBeyondRegs s t) ∧
    (s.i.toNat + x.toNat > 4095 → exec (.readRegistersV0ThroughVxFromMemory x) s =
      .fault (.memOutOfRange (firstOutOfRange (effectiveAddress s 0)) (some (0xF#4 ++ x ++ 0x65#8)) s.pc))

/-- O24. R53: a block store over the address of the next instruction changes what the next fetch reads. -/
def Obligations.StoreIsSeenByNextFetch : Prop :=
  ∀ (x k j : Nibble) (s : State), s.mem.wf → s.i.toNat + x.toNat ≤ 4095 → j.toNat = k.toNat + 1 →
    j.toNat ≤ x.toNat → (s.pc + 2#16).toNat = effectiveAddress s k.toNat →
    ∃ t, exec (.storeRegistersV0ThroughVxInMemory x) s = .next t ∧ fetch t = .ok (s.reg k ++ s.reg j : Word)

/-! ## Display and random (`spec/43_display_random.md`) -/

/-- O25. `ClearDisplay` turns every pixel off and sets `dirty`, also on a clear display (the spec's decision D12, log
11). -/
def Obligations.ClearDisplayBlanks : Prop :=
  decode 0x00E0#16 = .clearDisplay ∧
  ∀ s : State, ∃ t, exec .clearDisplay s = .next t ∧ (∀ px py, pixel t.disp px py = false) ∧ t.dirty = true ∧
    t.pc = s.pc + 2#16 ∧ t.i = s.i ∧ sameRegs s t ∧ sameMem s t ∧ sameStack s t ∧ sameTimers s t ∧ sameControl s t ∧
    sameBooks s t ∧ sameOutputs s t

/-- O26. R116, R118: exactly the plotted pixels flip, each wrapped on its own; `VF` is 1 exactly where a plotted pixel
was lit; `dirty` is set exactly where a pixel was plotted; with `n = 0` no memory is read and no fault is possible;
past the end of memory the instruction faults at the first row out of range. That the fault records its opcode and `PC`
is R160's, the spec's decision D13 (log 22). -/
def Obligations.DrawSpriteXorPlots : Prop :=
  (∀ x y n : Nibble, decode (0xD#4 ++ x ++ y ++ n : Word) = .drawSprite x y n) ∧
  ∀ (x y n : Nibble) (s : State),
    (n = 0#4 ∨ s.i.toNat + n.toNat ≤ 4096 → ∃ t, exec (.drawSprite x y n) s = .next t ∧
      (∀ px py, pixel t.disp px py = true ↔ ¬(pixel s.disp px py = true ↔ spritePlots s x y n px py)) ∧
      ((∃ px py, spritePlots s x y n px py ∧ pixel s.disp px py = true) → t.reg 15#4 = 1#8) ∧
      (¬(∃ px py, spritePlots s x y n px py ∧ pixel s.disp px py = true) → t.reg 15#4 = 0#8) ∧
      (∀ k, k ≠ 15#4 → t.reg k = s.reg k) ∧
      (t.dirty = true ↔ s.dirty = true ∨ ∃ px py, spritePlots s x y n px py) ∧
      t.pc = s.pc + 2#16 ∧ t.i = s.i ∧ sameMem s t ∧ sameStack s t ∧ sameTimers s t ∧ sameControl s t ∧
      sameBooks s t ∧ sameOutputs s t) ∧
    (n ≠ 0#4 ∧ s.i.toNat + n.toNat > 4096 → exec (.drawSprite x y n) s =
      .fault (.memOutOfRange (firstOutOfRange (effectiveAddress s 0)) (some (0xD#4 ++ x ++ y ++ n)) s.pc))

/-- O27. R119 (a law the spec derives): the same draw twice restores every pixel; if it plots at all and the plotted
pixels were off, the first draw reports no collision and the second does. -/
def Obligations.DrawTwiceRestores : Prop :=
  ∀ (x y n : Nibble) (s : State), x ≠ 15#4 → y ≠ 15#4 → (n = 0#4 ∨ s.i.toNat + n.toNat ≤ 4096) →
    ∃ t u, exec (.drawSprite x y n) s = .next t ∧ exec (.drawSprite x y n) t = .next u ∧
      (∀ px py, pixel u.disp px py = pixel s.disp px py) ∧
      ((∃ px py, spritePlots s x y n px py) → (∀ px py, spritePlots s x y n px py → pixel s.disp px py = false) →
        t.reg 15#4 = 0#8 ∧ u.reg 15#4 = 1#8)

/-- O28. R117: `V[x]` is the fresh free byte and the mask; whatever the byte, no bit outside the mask is set. -/
def Obligations.RandomByteIsMasked : Prop :=
  (∀ (x : Nibble) (kk : Byte), decode (0xC#4 ++ x ++ kk : Word) = .setVxToRandomAndByte x kk) ∧
  ∀ (x : Nibble) (kk : Byte) (s : State), ∃ t, exec (.setVxToRandomAndByte x kk) s = .next t ∧
    t.reg x = Config.draw8 s.draws &&& kk ∧ t.draws = s.draws + 1 ∧ t.reg x &&& ~~~kk = 0#8 ∧
    (∀ k, k ≠ x → t.reg k = s.reg k) ∧ t.pc = s.pc + 2#16 ∧ t.i = s.i ∧ sameMem s t ∧ sameStack s t ∧
    sameTimers s t ∧ sameScreen s t ∧ sameControl s t ∧ sameBooks s t ∧ t.events = s.events

/-! ## Keys, wait and timers (`spec/44_input_timers.md`) -/

/-- O29. The key skips test the key the low nibble of `V[x]` selects (the spec's decision D7, log 8). -/
def Obligations.KeySkips : Prop :=
  ∀ (x k : Nibble) (s : State), k.toNat = (s.reg x).toNat % 16 →
    (∃ t, exec (.skipIfKeyVxPressed x) s = .next t ∧
      t.pc = (if s.keyDown k = true then s.pc + 4#16 else s.pc + 2#16) ∧ sameRegs s t ∧ t.i = s.i ∧
      sameBeyondRegs s t) ∧
    (∃ t, exec (.skipIfKeyVxNotPressed x) s = .next t ∧
      t.pc = (if s.keyDown k = false then s.pc + 4#16 else s.pc + 2#16) ∧ sameRegs s t ∧ t.i = s.i ∧
      sameBeyondRegs s t)

/-- O30. R122: the wait is entered and nothing else changes, whatever keys are down. -/
def Obligations.WaitIsEntered : Prop :=
  (∀ x : Nibble, decode (0xF#4 ++ x ++ 0x0A#8 : Word) = .waitForKeyPressAndStoreInVx x) ∧
  ∀ (x : Nibble) (s : State), ∃ t, exec (.waitForKeyPressAndStoreInVx x) s = .next t ∧
    t.wait = .waitingForKey x ∧ t.pc = s.pc ∧ t.i = s.i ∧ sameRegs s t ∧ sameMem s t ∧ sameStack s t ∧
    sameTimers s t ∧ sameScreen s t ∧ t.fault = s.fault ∧ t.tone = s.tone ∧ t.key = s.key ∧ sameBooks s t ∧
    sameOutputs s t

/-- O31. R123, R124: the delay timer is read into and written from `V[x]`. -/
def Obligations.DelayTimerAccess : Prop :=
  (∀ x : Nibble, decode (0xF#4 ++ x ++ 0x07#8 : Word) = .setVxToDelayTimer x ∧
    decode (0xF#4 ++ x ++ 0x15#8 : Word) = .setDelayTimerToVx x) ∧
  ∀ (x : Nibble) (s : State),
    (∃ t, exec (.setVxToDelayTimer x) s = .next t ∧ (∀ k, t.reg k = if k = x then s.dt else s.reg k) ∧
      t.pc = s.pc + 2#16 ∧ t.i = s.i ∧ sameBeyondRegs s t) ∧
    (∃ t, exec (.setDelayTimerToVx x) s = .next t ∧ t.dt = s.reg x ∧ t.st = s.st ∧ t.pc = s.pc + 2#16 ∧
      t.i = s.i ∧ sameRegs s t ∧ sameMem s t ∧ sameStack s t ∧ sameScreen s t ∧ sameControl s t ∧ sameBooks s t ∧
      sameOutputs s t)

/-- O32. R125: the sound timer takes `V[x]`, and at the end of the same cycle the tone latch is on exactly where that
value is not 0. -/
def Obligations.SoundTimerDrivesTone : Prop :=
  (∀ x : Nibble, decode (0xF#4 ++ x ++ 0x18#8 : Word) = .setSoundTimerToVx x) ∧
  (∀ (x : Nibble) (s : State), ∃ t, exec (.setSoundTimerToVx x) s = .next t ∧ t.st = s.reg x ∧ t.dt = s.dt ∧
    t.pc = s.pc + 2#16 ∧ t.i = s.i ∧ sameRegs s t ∧ sameMem s t ∧ sameStack s t ∧ sameScreen s t ∧ sameControl s t ∧
    sameBooks s t ∧ sameOutputs s t) ∧
  (∀ (x : Nibble) (s : State), executes s (.setSoundTimerToVx x) →
    ∃ t, step s = .next t ∧ t.st = s.reg x ∧ (t.tone = true ↔ s.reg x ≠ 0#8))

/-! ## Invalid (`spec/45_invalid.md`) -/

/-- O33. R130: one `Diag(op)` and `PC + 2`, no fault, nothing else; the tone latch is refreshed as after every cycle. -/
def Obligations.InvalidIsDiagnosedNoOp : Prop :=
  (∀ (op : Word) (s : State), ∃ t, exec (.invalid op) s = .next t ∧ t.events = .diag op :: s.events ∧
    t.pc = s.pc + 2#16 ∧ t.i = s.i ∧ sameRegs s t ∧ sameMem s t ∧ sameStack s t ∧ sameTimers s t ∧ sameScreen s t ∧
    sameControl s t ∧ sameBooks s t ∧ t.draws = s.draws) ∧
  (∀ (op : Word) (s : State), executes s (.invalid op) →
    ∃ t, step s = .next t ∧ t.events = .diag op :: s.events ∧ t.pc = s.pc + 2#16 ∧ (t.tone = true ↔ s.st ≠ 0#8) ∧
      t.fault = none)

/-! ## The wait, the tick and the host moves (`spec/46_cycle_and_scheduler.md`) -/

/-- O34. The wait resolution stores the least key that is down (the spec's decision D11, log 10), returns to `Running`
and steps over the instruction; the tone latch is not refreshed (decision D18, log 12). -/
def Obligations.WaitResolves : Prop :=
  ∀ (s : State) (r k : Nibble), nextMove s = .instrIteration → s.fault = none → s.wait = .waitingForKey r →
    s.keyDown k = true → (∀ j : Nibble, j.toNat < k.toNat → s.keyDown j = false) →
    ∃ t, step s = .next t ∧ (t.reg r).toNat = k.toNat ∧ (∀ j, j ≠ r → t.reg j = s.reg j) ∧ t.wait = .running ∧
      t.pc = s.pc + 2#16 ∧ t.i = s.i ∧ sameMem s t ∧ sameStack s t ∧ sameTimers s t ∧ sameScreen s t ∧
      t.fault = none ∧ t.tone = s.tone ∧ t.key = s.key ∧ sameOutputs s t ∧ takesOneGrant s t

/-- O35. R138: a poll with no key down changes nothing at all (but that the grant is taken and the load port of a
machine that has started is closed: the model's books, logs 1 and 14). That a poll leaves the tone latch alone is the
spec's decision D18 (log 12). -/
def Obligations.PollWithoutKeyChangesNothing : Prop :=
  ∀ (s : State) (r : Nibble), nextMove s = .instrIteration → s.fault = none → s.wait = .waitingForKey r →
    (∀ j : Nibble, s.keyDown j = false) →
    ∃ t, step s = .next t ∧ sameRegs s t ∧ t.pc = s.pc ∧ t.i = s.i ∧ sameMem s t ∧ sameStack s t ∧ sameTimers s t ∧
      sameScreen s t ∧ sameControl s t ∧ sameOutputs s t ∧ takesOneGrant s t

/-- O36. R140, R141, R142: a tick counts each timer down to 0 on its own, in both wait states, requests a redraw
exactly where `dirty` is set (an event, log 13), and changes nothing else. A stopped core takes none (the rules say "no
step"); that its step then answers the latched fault again is the model's choice (log 2). -/
def Obligations.TimerTickCountsDown : Prop :=
  ∀ s : State, nextMove s = .timerTick →
    (s.fault = none → ∃ t, step s = .next t ∧ t.dt.toNat = s.dt.toNat - 1 ∧ t.st.toNat = s.st.toNat - 1 ∧
      t.events = (if s.dirty = true then Event.redrawRequest :: s.events else s.events) ∧
      sameRegs s t ∧ t.pc = s.pc ∧ t.i = s.i ∧ sameMem s t ∧ sameStack s t ∧ sameScreen s t ∧ sameControl s t ∧
      t.draws = s.draws ∧ takesOneGrant s t) ∧
    (∀ f, s.fault = some f → step s = .fault f)

/-- O37. Source property S8, for every start value and every number of ticks: `n` ticks take a timer to its value less
`n`, and to 0 where that is negative. -/
def Obligations.TicksRunTimersDown : Prop :=
  ∀ (n : Nat) (s : State), s.fault = none → s.agenda = List.replicate n .timerTick →
    ∃ t, Host.Core.run core n s = .next t ∧ t.dt.toNat = s.dt.toNat - n ∧ t.st.toNat = s.st.toNat - n ∧
      t.agenda = []

/-- O38. R146, R147, R148: `SetKey` and `ClearKey` write one key and nothing else, `ReadDisplay` returns the grid and
the dirty flag and changes nothing; a stopped core does not stop them. -/
def Obligations.KeyAndReadMoves : Prop :=
  ∀ s : State,
    (∀ k, nextMove s = .setKey k → ∃ t, step s = .next t ∧ (∀ j, t.keyDown j = if j = k then true else s.keyDown j) ∧
      sameRegs s t ∧ t.pc = s.pc ∧ t.i = s.i ∧ sameMem s t ∧ sameStack s t ∧ sameTimers s t ∧ sameScreen s t ∧
      t.wait = s.wait ∧ t.fault = s.fault ∧ t.tone = s.tone ∧ sameOutputs s t ∧ takesOneGrant s t) ∧
    (∀ k, nextMove s = .clearKey k → ∃ t, step s = .next t ∧ (∀ j, t.keyDown j = if j = k then false else s.keyDown j) ∧
      sameRegs s t ∧ t.pc = s.pc ∧ t.i = s.i ∧ sameMem s t ∧ sameStack s t ∧ sameTimers s t ∧ sameScreen s t ∧
      t.wait = s.wait ∧ t.fault = s.fault ∧ t.tone = s.tone ∧ sameOutputs s t ∧ takesOneGrant s t) ∧
    (nextMove s = .readDisplay → ∃ t, step s = .next t ∧ t.events = .frame s.disp s.dirty :: s.events ∧
      sameRegs s t ∧ t.pc = s.pc ∧ t.i = s.i ∧ sameMem s t ∧ sameStack s t ∧ sameTimers s t ∧ sameScreen s t ∧
      sameControl s t ∧ t.draws = s.draws ∧ takesOneGrant s t)

/-- O39. `ClearDirty` clears `dirty` and changes nothing else; it is a move apart from `ReadDisplay` (the spec's
decision D25, log 23). -/
def Obligations.ClearDirtyMove : Prop :=
  ∀ s : State, nextMove s = .clearDirty → ∃ t, step s = .next t ∧ t.dirty = false ∧
    (∀ px py, pixel t.disp px py = pixel s.disp px py) ∧ sameRegs s t ∧ t.pc = s.pc ∧ t.i = s.i ∧ sameMem s t ∧
    sameStack s t ∧ sameTimers s t ∧ sameControl s t ∧ sameOutputs s t ∧ takesOneGrant s t

/-- O40. R193: a load that fits copies its bytes and sets `PC`; one that does not fit faults and copies nothing; a load
after the load or the start (the spec's decision D23, log 14) is refused. -/
def Obligations.LoadRomCopiesAndSetsPc : Prop :=
  ∀ (s : State) (bytes : List Byte) (addr : Nat), nextMove s = .loadRom bytes addr → s.mem.wf →
    (s.loadOpen = true → s.fault = none → addr + bytes.length ≤ 4096 →
      ∃ t, step s = .next t ∧ t.pc.toNat = addr ∧ t.loadOpen = false ∧
        (∀ k (h : k < bytes.length), memRead t.mem (addr + k) = bytes[k]) ∧
        (∀ a, ¬(addr ≤ a ∧ a < addr + bytes.length) → memRead t.mem a = memRead s.mem a) ∧
        sameRegs s t ∧ t.i = s.i ∧ sameStack s t ∧ sameTimers s t ∧ sameScreen s t ∧ sameControl s t ∧
        sameOutputs s t ∧ takesOneGrant s t) ∧
    (s.loadOpen = true → s.fault = none → addr + bytes.length > 4096 →
      step s = .fault (.loadOutOfRange addr bytes.length)) ∧
    (s.loadOpen = false ∨ s.fault ≠ none → step s = .refused .loadNotAllowed)

/-- O41. R163: a fault is latched by the step that raises it; from then on an iteration or a tick that is granted does
not take place, and nothing but the agenda and the count of grants moves. The latch is the spec's decision D13; the one
`FaultDiag` is R35's and R160's (decisions D20 and D13), kept as an event (log 13). That a stopped core's step answers
its fault again, and that the raising step leaves the earlier events as they were, is the model's choice (log 2). -/
def Obligations.FaultIsTerminal : Prop :=
  (∀ (s : State) (f : Fault), s.fault = none → step s = .fault f →
    (advance s).fault = some f ∧ (advance s).events = .faultDiag f :: s.events) ∧
  (∀ (s : State) (f : Fault), s.fault = some f → nextMove s = .instrIteration ∨ nextMove s = .timerTick →
    step s = .fault f ∧ advance s = s.takeGrant) ∧
  (∀ (s : State) (f : Fault), s.fault = some f → (advance s).fault = some f)

/-- O42. R144, R153 (the order is the spec's open parameter, decision D15, log 1): from every state, for every move,
some agenda makes that move the next one, without any other difference. -/
def Obligations.AnyMoveCanComeNext : Prop :=
  ∀ (s : State) (m : Move) (later : List Move), ∃ a : List Move,
    nextMove { s with agenda := a } = m ∧ ({ s with agenda := a } : State).takeGrant = { s with agenda := later }

/-! ## Whole-machine rules -/

/-- O43. The invariant holds at reset, under every agenda (log 1). The canonical form of memory is the model's (log 4),
the clause on the load port is the model's (log 14), and the zero values the other clauses read at reset are the
spec's decision D4 (log 6); `PC = 0x200` is R15's. -/
def Obligations.InvariantAtReset : Prop :=
  ∀ agenda : List Move, ({ State.reset with agenda := agenda } : State).Inv

/-- O44. Every step keeps the invariant: the memory stays in canonical form, `PC` stays at most 0x10FE, no stack entry
exceeds 4096, a waiting core stands at a fetchable `PC` (R15, R25, R137). -/
def Obligations.InvariantKeptByEveryStep : Prop :=
  ∀ s t : State, s.Inv → step s = .next t → t.Inv

/-- O45. R12: the value `VF` receives from each of the six instructions that write it as a side effect, and that every
other instruction leaves `VF` alone unless it names it as its destination. The values at `x = 15` are the spec's
decision D6 (log 7), that OR, AND, XOR leave `VF` alone is its decision D29 (log 19), and that `AddVxToI` does is its
decision D9 (log 9). -/
def Obligations.OnlySixInstructionsWriteVF : Prop :=
  ∀ (i : Instr) (s t : State), exec i s = .next t →
    match i with
    | .addVyToVxWithCarry x y => t.reg 15#4 = if (s.reg x).toNat + (s.reg y).toNat > 255 then 1#8 else 0#8
    | .subtractVyFromVxWithBorrow x y => t.reg 15#4 = if (s.reg x).toNat ≥ (s.reg y).toNat then 1#8 else 0#8
    | .setVxToVyMinusVx x y => t.reg 15#4 = if (s.reg y).toNat ≥ (s.reg x).toNat then 1#8 else 0#8
    | .shiftVxRightByOne _ y => (t.reg 15#4).toNat = (s.reg y).toNat % 2
    | .shiftVxLeftByOne _ y => (t.reg 15#4).toNat = (s.reg y).toNat / 128
    | .drawSprite x y n =>
      (t.reg 15#4 = 1#8 ∧ ∃ px py, spritePlots s x y n px py ∧ pixel s.disp px py = true) ∨
      (t.reg 15#4 = 0#8 ∧ ¬∃ px py, spritePlots s x y n px py ∧ pixel s.disp px py = true)
    | .setVxToByte x _ | .addByteToVx x _ | .setVxToVy x _ | .setVxToVxOrVy x _ | .setVxToVxAndVy x _
    | .setVxToVxXorVy x _ | .setVxToRandomAndByte x _ | .setVxToDelayTimer x
    | .readRegistersV0ThroughVxFromMemory x => x ≠ 15#4 → t.reg 15#4 = s.reg 15#4
    | .clearDisplay | .returnFromSubroutine | .jumpToAddress _ | .callSubroutine _ | .skipIfVxEqualsByte _ _
    | .skipIfVxNotEqualsByte _ _ | .skipIfVxEqualsVy _ _ | .skipIfVxNotEqualsVy _ _ | .setIToAddress _
    | .jumpToAddressPlusV0 _ | .skipIfKeyVxPressed _ | .skipIfKeyVxNotPressed _ | .waitForKeyPressAndStoreInVx _
    | .setDelayTimerToVx _ | .setSoundTimerToVx _ | .addVxToI _ | .setIToSpriteAddressForDigitVx _
    | .storeBcdOfVxAtI _ | .storeRegistersV0ThroughVxInMemory _ | .invalid _ => t.reg 15#4 = s.reg 15#4

/-- O46. R160: no instruction is refused, and none faults but a call at depth 16, a return at depth 0 and the four
memory instructions; each of the six records its own opcode and its `PC`. -/
def Obligations.OnlySixInstructionsFault : Prop :=
  ∀ (i : Instr) (s : State),
    (∀ r, exec i s ≠ .refused r) ∧
    (∀ f, exec i s = .fault f →
      (∃ nnn, i = .callSubroutine nnn ∧ s.sp.val = 16 ∧ f = .stackOverflow (encode i) s.pc) ∨
      (i = .returnFromSubroutine ∧ s.sp.val = 0 ∧ f = .stackUnderflow (encode i) s.pc) ∨
      (((∃ x, i = .storeBcdOfVxAtI x) ∨ (∃ x, i = .storeRegistersV0ThroughVxInMemory x) ∨
        (∃ x, i = .readRegistersV0ThroughVxFromMemory x) ∨ ∃ x y n, i = .drawSprite x y n) ∧
        ∃ a, 4095 < a ∧ f = .memOutOfRange a (some (encode i)) s.pc))

/-- O47. R23, R39: a key changes only by the input source's own move. -/
def Obligations.OnlyInputSourceWritesKeys : Prop :=
  ∀ s t : State, step s = .next t → t.key ≠ s.key → ∃ k, nextMove s = .setKey k ∨ nextMove s = .clearKey k

/-- O48. R22: `dirty` is set only by `ClearDisplay` or a `DrawSprite`, and cleared only by `ClearDirty`. -/
def Obligations.DirtyIsSetAndClearedOnlySo : Prop :=
  ∀ s t : State, step s = .next t →
    (s.dirty = false → t.dirty = true → executes s .clearDisplay ∨ ∃ x y n, executes s (.drawSprite x y n)) ∧
    (s.dirty = true → t.dirty = false → nextMove s = .clearDirty)

/-- O49. R21: a pixel changes only by `ClearDisplay` or `DrawSprite`. -/
def Obligations.OnlyClearAndDrawChangePixels : Prop :=
  ∀ s t : State, step s = .next t → t.disp ≠ s.disp →
    executes s .clearDisplay ∨ ∃ x y n, executes s (.drawSprite x y n)

/-- O50. R16: the stack and its depth change only by a call or a return. -/
def Obligations.OnlyCallAndReturnChangeStack : Prop :=
  ∀ s t : State, step s = .next t → t.sp ≠ s.sp ∨ t.stack ≠ s.stack →
    (∃ nnn, executes s (.callSubroutine nnn)) ∨ executes s .returnFromSubroutine

/-- O51. R18: `DT` changes only by FX15 or a tick, `ST` only by FX18 or a tick, and a tick only counts down. -/
def Obligations.TimersChangeOnlySo : Prop :=
  ∀ s t : State, step s = .next t →
    (t.dt ≠ s.dt → (∃ x, executes s (.setDelayTimerToVx x) ∧ t.dt = s.reg x) ∨
      (nextMove s = .timerTick ∧ t.dt.toNat + 1 = s.dt.toNat)) ∧
    (t.st ≠ s.st → (∃ x, executes s (.setSoundTimerToVx x) ∧ t.st = s.reg x) ∨
      (nextMove s = .timerTick ∧ t.st.toNat + 1 = s.st.toNat))

/-- O52. R14: `I` changes only by ANNN, FX1E and FX29. -/
def Obligations.OnlyThreeInstructionsWriteI : Prop :=
  ∀ s t : State, step s = .next t → t.i ≠ s.i →
    (∃ nnn, executes s (.setIToAddress nnn)) ∨ (∃ x, executes s (.addVxToI x)) ∨
    ∃ x, executes s (.setIToSpriteAddressForDigitVx x)

/-- O53. R40, R39: a byte of memory changes only by a BCD store or a block store through `I`, inside the bytes the
instruction stores to, or by the load before the run. -/
def Obligations.OnlyStoresChangeMemory : Prop :=
  ∀ (s t : State) (a : Nat), step s = .next t → memRead t.mem a ≠ memRead s.mem a →
    ((∃ x, executes s (.storeBcdOfVxAtI x)) ∧ s.i.toNat ≤ a ∧ a ≤ s.i.toNat + 2) ∨
    (∃ x, executes s (.storeRegistersV0ThroughVxInMemory x) ∧ s.i.toNat ≤ a ∧ a ≤ s.i.toNat + x.toNat) ∨
    (s.loadOpen = true ∧ ∃ bytes addr, nextMove s = .loadRom bytes addr ∧ addr ≤ a ∧ a < addr + bytes.length)

/-- O54. R19, R139: the wait is entered only by FX0A, for its own register and with `PC` held, and left only by a poll
that finds a key down. -/
def Obligations.WaitTransitions : Prop :=
  ∀ s t : State, step s = .next t → t.wait ≠ s.wait →
    (∃ x, executes s (.waitForKeyPressAndStoreInVx x) ∧ t.wait = .waitingForKey x ∧ t.pc = s.pc) ∨
    (∃ r k, nextMove s = .instrIteration ∧ s.wait = .waitingForKey r ∧ s.keyDown k = true ∧ t.wait = .running ∧
      t.pc = s.pc + 2#16)

/-- O55. R28, R136 (decision D18, log 12): the tone latch changes only at the end of a cycle, and then it is on exactly
where `ST` is not 0. -/
def Obligations.ToneChangesOnlyAtCycleEnd : Prop :=
  ∀ s t : State, step s = .next t →
    (t.tone ≠ s.tone → runsCycle s) ∧ (runsCycle s → (t.tone = true ↔ t.st ≠ 0#8))

/-- O56. R21, R22: no instruction but the two of the display reads the grid or the dirty flag: what it does is the same
whatever they hold. -/
def Obligations.ScreenIsInvisibleToOthers : Prop :=
  ∀ (i : Instr) (s : State) (d : Display) (b : Bool), i ≠ .clearDisplay → (∀ x y n, i ≠ .drawSprite x y n) →
    exec i { s with disp := d, dirty := b } =
      match exec i s with
      | .next t => .next { t with disp := d, dirty := b }
      | .fault f => .fault f
      | .refused r => .refused r

/-- O57. R18, R28: no instruction reads the sound timer or the tone latch: what every other instruction does is the same
whatever they hold. -/
def Obligations.SoundIsInvisibleToPrograms : Prop :=
  ∀ (i : Instr) (s : State) (b : Byte) (c : Bool), (∀ x, i ≠ .setSoundTimerToVx x) →
    exec i { s with st := b, tone := c } =
      match exec i s with
      | .next t => .next { t with st := b, tone := c }
      | .fault f => .fault f
      | .refused r => .refused r
end

