-- ==== Sys2Proof/Laws/Decode.lean ====
section
/-! SUPPORT. The fields of an opcode put together from its fields, in the three shapes of `spec/30_encoding.md` R62,
and an opcode put together again from its fields. -/

namespace Sys2Proof

/-! ## The bits of the three shapes -/

theorem getLsbD_f_nnn (f : Nibble) (n : Addr) (j : Nat) :
    (f ++ n : Word).getLsbD j = if j < 12 then n.getLsbD j else f.getLsbD (j - 12) :=
  (BitVec.getLsbD_append (x := f) (y := n) (i := j)).trans (by by_cases h : j < 12 <;> simp [h])

theorem getLsbD_f_x_kk (f x : Nibble) (kk : Byte) (j : Nat) :
    (f ++ x ++ kk : Word).getLsbD j =
      if j < 8 then kk.getLsbD j else if j - 8 < 4 then x.getLsbD (j - 8) else f.getLsbD (j - 8 - 4) :=
  (BitVec.getLsbD_append (x := f ++ x) (y := kk) (i := j)).trans (by rw [BitVec.getLsbD_append])

theorem getLsbD_f_x_y_n (f x y n : Nibble) (j : Nat) :
    (f ++ x ++ y ++ n : Word).getLsbD j =
      if j < 4 then n.getLsbD j else if j - 4 < 4 then y.getLsbD (j - 4)
      else if j - 4 - 4 < 4 then x.getLsbD (j - 4 - 4) else f.getLsbD (j - 4 - 4 - 4) :=
  (BitVec.getLsbD_append (x := f ++ x ++ y) (y := n) (i := j)).trans
    (by rw [BitVec.getLsbD_append, BitVec.getLsbD_append])

/-! ## The fields of the three shapes -/

theorem fields_f_nnn (f : Nibble) (n : Addr) : fieldF (f ++ n : Word) = f ∧ fieldNnn (f ++ n : Word) = n := by
  refine ⟨?_, ?_⟩ <;> apply BitVec.eq_of_getLsbD_eq <;> intro i hi
  all_goals simp only [fieldNnn, fieldF, BitVec.getLsbD_extractLsb', hi, decide_true, Bool.true_and, getLsbD_f_nnn]
  all_goals (repeat' split) <;> first | (exfalso; omega) | (congr 1; omega)

theorem fields_f_x_kk (f x : Nibble) (kk : Byte) :
    fieldF (f ++ x ++ kk : Word) = f ∧ fieldX (f ++ x ++ kk : Word) = x ∧ fieldKk (f ++ x ++ kk : Word) = kk := by
  refine ⟨?_, ?_, ?_⟩ <;> apply BitVec.eq_of_getLsbD_eq <;> intro i hi
  all_goals simp only [fieldX, fieldF, fieldKk, BitVec.getLsbD_extractLsb', hi, decide_true, Bool.true_and,
    getLsbD_f_x_kk]
  all_goals (repeat' split) <;> first | (exfalso; omega) | (congr 1; omega)

theorem fields_f_x_y_n (f x y n : Nibble) :
    fieldF (f ++ x ++ y ++ n : Word) = f ∧ fieldX (f ++ x ++ y ++ n : Word) = x ∧
    fieldY (f ++ x ++ y ++ n : Word) = y ∧ fieldN (f ++ x ++ y ++ n : Word) = n := by
  refine ⟨?_, ?_, ?_, ?_⟩ <;> apply BitVec.eq_of_getLsbD_eq <;> intro i hi
  all_goals simp only [fieldX, fieldF, fieldY, fieldN, BitVec.getLsbD_extractLsb', hi, decide_true, Bool.true_and,
    getLsbD_f_x_y_n]
  all_goals (repeat' split) <;> first | (exfalso; omega) | (congr 1; omega)

/-! ## An opcode from its fields -/

theorem opcode_f_nnn (op : Word) : fieldF op ++ fieldNnn op = op := by
  apply BitVec.eq_of_getLsbD_eq
  intro i hi
  rw [getLsbD_f_nnn]
  simp only [fieldF, fieldNnn, BitVec.getLsbD_extractLsb']
  split
  · simp [*]
  · simp [show i - 12 < 4 by omega, show 12 + (i - 12) = i by omega]

theorem opcode_f_x_kk (op : Word) : fieldF op ++ fieldX op ++ fieldKk op = op := by
  apply BitVec.eq_of_getLsbD_eq
  intro i hi
  rw [getLsbD_f_x_kk]
  simp only [fieldF, fieldX, fieldKk, BitVec.getLsbD_extractLsb']
  repeat' split
  · simp [*]
  · simp [*, show 8 + (i - 8) = i by omega]
  · simp [show i - 8 - 4 < 4 by omega, show 12 + (i - 8 - 4) = i by omega]

theorem opcode_f_x_y_n (op : Word) : fieldF op ++ fieldX op ++ fieldY op ++ fieldN op = op := by
  apply BitVec.eq_of_getLsbD_eq
  intro i hi
  rw [getLsbD_f_x_y_n]
  simp only [fieldF, fieldX, fieldY, fieldN, BitVec.getLsbD_extractLsb']
  repeat' split
  · simp [*]
  · simp [*, show 4 + (i - 4) = i by omega]
  · simp [*, show 8 + (i - 4 - 4) = i by omega]
  · simp [show i - 4 - 4 - 4 < 4 by omega, show 12 + (i - 4 - 4 - 4) = i by omega]

/-- The two bytes of an opcode, put together (R43). -/
theorem wordOfBytes_split (w : Word) : wordOfBytes (highByte w) (lowByte w) = w := by
  apply BitVec.eq_of_getLsbD_eq
  intro i hi
  have h : (wordOfBytes (highByte w) (lowByte w)).getLsbD i =
      if i < 8 then (lowByte w).getLsbD i else (highByte w).getLsbD (i - 8) := BitVec.getLsbD_append
  rw [h]
  simp only [highByte, lowByte, BitVec.getLsbD_extractLsb']
  split
  · simp [*]
  · simp [show i - 8 < 8 by omega, show 8 + (i - 8) = i by omega]

end Sys2Proof
end

