-- ==== Sys2Proof/Laws/Draw.lean ====
section
/-! SUPPORT. What a draw does to the display (`spec/43_display_random.md` R116, R118, R119), said once. -/

namespace Sys2Proof.Machine

/-! ## One pixel -/

theorem pixel_setPixel (d : Display) (px qx : Fin 64) (py qy : Fin 32) (b : Bool) :
    pixel (setPixel d px py b) qx qy = if qx = px ∧ qy = py then b else pixel d qx qy := by
  simp only [pixel, setPixel]
  by_cases hy : qy = py
  · subst hy
    by_cases hx : qx = px
    · subst hx; simp
    · simp [hx, Vector.getElem_set_ne, Fin.val_ne_of_ne (Ne.symm hx)]
  · simp [hy, Vector.getElem_set_ne, Fin.val_ne_of_ne (Ne.symm hy)]

/-- Two displays that agree on every pixel are the same. -/
theorem display_ext (d e : Display) (h : ∀ px py, pixel d px py = pixel e px py) : d = e := by
  apply Vector.ext
  intro y hy
  apply Vector.ext
  intro x hx
  exact h ⟨x, hx⟩ ⟨y, hy⟩

@[simp] theorem pixel_blankDisplay (px : Fin 64) (py : Fin 32) : pixel blankDisplay px py = false := by
  simp [pixel, blankDisplay]

/-! ## A draw as a list of plotted cells -/

/-- The cells one sprite row plots, in order. -/
def rowCells (cx cy : Byte) (row : Nat) (b : Byte) : List (Fin 64 × Fin 32) :=
  ([0, 1, 2, 3, 4, 5, 6, 7].filter fun bit => b.getLsbD (7 - bit)).map fun bit => (spriteColumn cx bit, spriteRow cy row)

/-- The cells the rows from `row` on plot, in order. -/
def spriteCells (cx cy : Byte) : Nat → List Byte → List (Fin 64 × Fin 32)
  | _, [] => []
  | row, b :: bs => rowCells cx cy row b ++ spriteCells cx cy (row + 1) bs

/-- Plot a list of cells. -/
def plotCells (p : Plot) (cells : List (Fin 64 × Fin 32)) : Plot := cells.foldl (fun q c => plotPixel c.1 c.2 q) p

theorem plotRow_eq (cx cy : Byte) (row : Nat) (b : Byte) (p : Plot) :
    plotRow cx cy row b p = plotCells p (rowCells cx cy row b) := by
  simp only [plotRow, plotCells, rowCells, List.foldl_map, List.foldl_filter]
  rfl

theorem plotRows_eq (cx cy : Byte) (bs : List Byte) : ∀ (row : Nat) (p : Plot),
    plotRows cx cy row bs p = plotCells p (spriteCells cx cy row bs) := by
  induction bs with
  | nil => intros; rfl
  | cons b bs ih =>
    intro row p
    rw [plotRows, ih, plotRow_eq, spriteCells, plotCells, plotCells, plotCells, List.foldl_append]

/-- Plotting distinct cells flips exactly those, and reports whether one of them was lit before. -/
theorem plotCells_spec (cells : List (Fin 64 × Fin 32)) : ∀ p : Plot, cells.Nodup →
    (∀ px py, pixel (plotCells p cells).disp px py = xor (pixel p.disp px py) (decide ((px, py) ∈ cells))) ∧
    (plotCells p cells).collision = (p.collision || cells.any fun c => pixel p.disp c.1 c.2) ∧
    (plotCells p cells).plotted = (p.plotted || !cells.isEmpty) := by
  induction cells with
  | nil => intro p _; simp [plotCells]
  | cons c cs ih =>
    intro p hnd
    obtain ⟨hc, hcs⟩ := List.nodup_cons.1 hnd
    obtain ⟨h1, h2, h3⟩ := ih (plotPixel c.1 c.2 p) hcs
    have hstep : plotCells p (c :: cs) = plotCells (plotPixel c.1 c.2 p) cs := rfl
    refine ⟨fun px py => ?_, ?_, ?_⟩
    · rw [hstep, h1]
      simp only [plotPixel, pixel_setPixel]
      by_cases he : (px, py) = c
      · subst he
        simp [hc]
      · have : ¬(px = c.1 ∧ py = c.2) := fun ⟨a, b⟩ => he (Prod.ext a b)
        simp [this, he]
    · rw [hstep, h2]
      simp only [plotPixel, List.any_cons, Bool.or_assoc]
      congr 2
      rw [Bool.eq_iff_iff, List.any_eq_true, List.any_eq_true]
      refine exists_congr fun d => and_congr_right fun hd => ?_
      have : ¬(d.1 = c.1 ∧ d.2 = c.2) := fun ⟨a, b⟩ => hc (Prod.ext a b ▸ hd)
      rw [pixel_setPixel, if_neg this]
    · rw [hstep, h3]
      simp [plotPixel]

/-! ## Which cells a sprite plots -/

theorem mem_rowCells (cx cy : Byte) (row : Nat) (b : Byte) (c : Fin 64 × Fin 32) : c ∈ rowCells cx cy row b ↔
    ∃ bit, bit < 8 ∧ b.getLsbD (7 - bit) = true ∧ spriteColumn cx bit = c.1 ∧ spriteRow cy row = c.2 := by
  have h8 : ∀ bit : Nat, bit ∈ [0, 1, 2, 3, 4, 5, 6, 7] ↔ bit < 8 := by intro bit; simp; omega
  simp only [rowCells, List.mem_map, List.mem_filter, h8]
  constructor
  · rintro ⟨bit, ⟨h1, h2⟩, rfl⟩; exact ⟨bit, h1, h2, rfl, rfl⟩
  · rintro ⟨bit, h1, h2, h3, h4⟩; exact ⟨bit, ⟨h1, h2⟩, Prod.ext h3 h4⟩

theorem mem_spriteCells (cx cy : Byte) (bs : List Byte) (c : Fin 64 × Fin 32) : ∀ row,
    c ∈ spriteCells cx cy row bs ↔ ∃ k bit, k < bs.length ∧ bit < 8 ∧ (bs.getD k 0#8).getLsbD (7 - bit) = true ∧
      spriteColumn cx bit = c.1 ∧ spriteRow cy (row + k) = c.2 := by
  induction bs with
  | nil => intro row; simp [spriteCells]
  | cons b bs ih =>
    intro row
    simp only [spriteCells, List.mem_append, mem_rowCells, ih]
    constructor
    · rintro (⟨bit, h⟩ | ⟨k, bit, h0, h1, h2, h3, h4⟩)
      · exact ⟨0, bit, by simp, by simpa using h⟩
      · exact ⟨k + 1, bit, by simpa using h0, h1, by simpa using h2, h3, by rw [← h4]; congr 1; omega⟩
    · rintro ⟨k, bit, h0, h1, h2, h3, h4⟩
      cases k with
      | zero => exact .inl ⟨bit, h1, by simpa using h2, h3, h4⟩
      | succ k => exact .inr ⟨k, bit, by simpa using h0, h1, by simpa using h2, h3, by rw [← h4]; congr 1; omega⟩

/-- The eight columns of a sprite row are distinct modulo 64 (R116). -/
theorem spriteColumn_inj (cx : Byte) (i j : Nat) (hi : i < 8) (hj : j < 8) (h : spriteColumn cx i = spriteColumn cx j) :
    i = j := by
  have := congrArg Fin.val h
  simp only [spriteColumn, Fin.val_ofNat] at this
  omega

/-- At most 32 sprite rows are distinct modulo 32 (R116). -/
theorem spriteRow_inj (cy : Byte) (i j : Nat) (hi : i < 32) (hj : j < 32) (h : spriteRow cy i = spriteRow cy j) :
    i = j := by
  have := congrArg Fin.val h
  simp only [spriteRow, Fin.val_ofNat] at this
  omega

theorem rowCells_nodup (cx cy : Byte) (row : Nat) (b : Byte) : (rowCells cx cy row b).Nodup := by
  have h8 : ∀ bit : Nat, bit ∈ [0, 1, 2, 3, 4, 5, 6, 7] → bit < 8 := by intro bit; simp; omega
  unfold rowCells
  rw [List.Nodup, List.pairwise_map]
  refine List.Pairwise.imp_of_mem ?_ (List.Pairwise.filter _ (by decide : [0, 1, 2, 3, 4, 5, 6, 7].Nodup))
  intro i j hi hj hne he
  exact hne (spriteColumn_inj cx i j (h8 _ (List.mem_filter.1 hi).1) (h8 _ (List.mem_filter.1 hj).1) (congrArg Prod.fst he))

/-- Within one draw no pixel is plotted twice (R116). -/
theorem spriteCells_nodup (cx cy : Byte) (bs : List Byte) : ∀ row, row + bs.length ≤ 32 →
    (spriteCells cx cy row bs).Nodup := by
  induction bs with
  | nil => intros; exact List.nodup_nil
  | cons b bs ih =>
    intro row h
    simp only [List.length_cons] at h
    refine List.nodup_append.2 ⟨rowCells_nodup cx cy row b, ih (row + 1) (by omega), fun c hc d hd hcd => ?_⟩
    subst hcd
    obtain ⟨-, -, -, -, h1⟩ := (mem_rowCells ..).1 hc
    obtain ⟨k, -, hk, -, -, -, h2⟩ := (mem_spriteCells ..).1 hd
    have := spriteRow_inj cy row (row + 1 + k) (by omega) (by omega) (h1.trans h2.symm)
    omega

/-- Whether the sprite with these rows plots `(px, py)` (R116). -/
def plots (cx cy : Byte) (rows : List Byte) (px : Fin 64) (py : Fin 32) : Prop :=
  ∃ row bit, row < rows.length ∧ bit < 8 ∧ (rows.getD row 0#8).getLsbD (7 - bit) = true ∧
    spriteColumn cx bit = px ∧ spriteRow cy row = py

/-- Everything a draw of at most 32 rows does: it flips exactly the plotted pixels, reports a collision exactly where
a plotted pixel was lit, and reports a plot exactly where a pixel was plotted (R116). -/
theorem drawSpriteOn_spec (d : Display) (cx cy : Byte) (rows : List Byte) (h : rows.length ≤ 32) :
    (∀ px py, pixel (drawSpriteOn d cx cy rows).disp px py = true ↔ ¬(pixel d px py = true ↔ plots cx cy rows px py)) ∧
    ((drawSpriteOn d cx cy rows).collision = true ↔ ∃ px py, plots cx cy rows px py ∧ pixel d px py = true) ∧
    ((drawSpriteOn d cx cy rows).plotted = true ↔ ∃ px py, plots cx cy rows px py) := by
  have hmem : ∀ px py, (px, py) ∈ spriteCells cx cy 0 rows ↔ plots cx cy rows px py := by
    intro px py; rw [mem_spriteCells]; simp [plots]
  obtain ⟨h1, h2, h3⟩ :=
    plotCells_spec (spriteCells cx cy 0 rows) ⟨d, false, false⟩ (spriteCells_nodup cx cy rows 0 (by omega))
  simp only [drawSpriteOn, plotRows_eq]
  refine ⟨fun px py => ?_, ?_, ?_⟩
  · rw [h1, ← hmem]
    cases pixel d px py <;> simp
  · rw [h2]
    simp only [Bool.false_or, List.any_eq_true]
    constructor
    · rintro ⟨⟨px, py⟩, hc, hp⟩; exact ⟨px, py, (hmem px py).1 hc, hp⟩
    · rintro ⟨px, py, hc, hp⟩; exact ⟨(px, py), (hmem px py).2 hc, hp⟩
  · rw [h3]
    simp only [Bool.false_or, Bool.not_eq_true', List.isEmpty_eq_false_iff_exists_mem]
    constructor
    · rintro ⟨⟨px, py⟩, hc⟩; exact ⟨px, py, (hmem px py).1 hc⟩
    · rintro ⟨px, py, hc⟩; exact ⟨(px, py), (hmem px py).2 hc⟩

end Sys2Proof.Machine
end

