-- ==== Sys2Proof/Laws/Memory.lean ====
section
/-! SUPPORT. The laws of memory (`spec/20_memory.md` R42, R46, R49): read after write, the canonical form, and what
the byte sequences of the memory instructions read, write and fault on. -/

namespace Sys2Proof.Machine

/-! ## Read after write -/

/-- An address below every listed one reads as unlisted. -/
theorem memRead_of_lt (m : Memory) (a : Nat) (h : ∀ c ∈ m, a < c.1) : memRead m a = unlistedByte a := by
  induction m with
  | nil => rfl
  | cons c rest ih =>
    have hc := h c (List.mem_cons_self ..)
    rw [memRead, if_neg (by omega)]
    exact ih fun d hd => h d (List.mem_cons_of_mem _ hd)

/-- A write leaves every other address alone (R46). -/
theorem memRead_memWrite_ne (m : Memory) (a b : Nat) (w : Byte) (h : b ≠ a) :
    memRead (memWrite m a w) b = memRead m b := by
  induction m with
  | nil => by_cases hw : w = unlistedByte a <;> simp [memWrite, memRead, hw, Ne.symm h]
  | cons c rest ih =>
    obtain ⟨d, u⟩ := c
    simp only [memWrite]
    split
    · split <;> simp [memRead, Ne.symm h]
    · split
      · rename_i heq
        subst heq
        split <;> simp [memRead, Ne.symm h]
      · simp only [memRead, ih]

/-- A read of the written address returns the written byte (R46). -/
theorem memRead_memWrite_self (m : Memory) (a : Nat) (w : Byte) (hs : m.Pairwise fun c d => c.1 < d.1) :
    memRead (memWrite m a w) a = w := by
  induction m with
  | nil => by_cases hw : w = unlistedByte a <;> simp [memWrite, memRead, hw]
  | cons c rest ih =>
    obtain ⟨d, u⟩ := c
    obtain ⟨hd, hr⟩ := List.pairwise_cons.1 hs
    simp only [memWrite]
    split
    · rename_i hlt
      split
      · rename_i hw
        rw [hw]
        refine memRead_of_lt _ _ fun e he => ?_
        rcases List.mem_cons.1 he with rfl | he
        · exact hlt
        · exact Nat.lt_trans hlt (hd e he)
      · simp [memRead]
    · split
      · rename_i heq
        subst heq
        split
        · rename_i hw
          rw [hw]
          exact memRead_of_lt _ _ hd
        · simp [memRead]
      · rename_i h1 h2
        rw [memRead, if_neg (Ne.symm h2)]
        exact ih hr

/-! ## The canonical form -/

/-- Every cell of the memory after a write is an old one or the one written. -/
theorem mem_memWrite (m : Memory) (a : Nat) (w : Byte) (c : Host.Cell) (h : c ∈ memWrite m a w) :
    c ∈ m ∨ (c = (a, w) ∧ w ≠ unlistedByte a) := by
  induction m with
  | nil =>
    by_cases hw : w = unlistedByte a <;> simp_all [memWrite]
  | cons d rest ih =>
    obtain ⟨d, u⟩ := d
    simp only [memWrite] at h
    split at h
    · split at h
      · exact .inl h
      · rcases List.mem_cons.1 h with rfl | h
        · exact .inr ⟨rfl, ‹_›⟩
        · exact .inl h
    · split at h
      · split at h
        · exact .inl (List.mem_cons_of_mem _ h)
        · rcases List.mem_cons.1 h with rfl | h
          · exact .inr ⟨rfl, ‹_›⟩
          · exact .inl (List.mem_cons_of_mem _ h)
      · rcases List.mem_cons.1 h with rfl | h
        · exact .inl (List.mem_cons_self ..)
        · rcases ih h with h | h
          · exact .inl (List.mem_cons_of_mem _ h)
          · exact .inr h

theorem memWrite_sorted (m : Memory) (a : Nat) (w : Byte) (hs : m.Pairwise fun c d => c.1 < d.1) :
    (memWrite m a w).Pairwise fun c d => c.1 < d.1 := by
  induction m with
  | nil => by_cases hw : w = unlistedByte a <;> simp [memWrite, hw]
  | cons c rest ih =>
    obtain ⟨d, u⟩ := c
    obtain ⟨hd, hr⟩ := List.pairwise_cons.1 hs
    simp only [memWrite]
    split
    · rename_i hlt
      split
      · exact hs
      · refine List.pairwise_cons.2 ⟨fun e he => ?_, hs⟩
        rcases List.mem_cons.1 he with rfl | he
        · exact hlt
        · exact Nat.lt_trans hlt (hd e he)
    · split
      · rename_i heq
        subst heq
        split
        · exact hr
        · exact List.pairwise_cons.2 ⟨hd, hr⟩
      · rename_i h1 h2
        refine List.pairwise_cons.2 ⟨fun e he => ?_, ih hr⟩
        rcases mem_memWrite rest a w e he with he | ⟨rfl, -⟩
        · exact hd e he
        · show d < a
          omega

/-- A write inside the address space keeps the canonical form. -/
theorem memWrite_wf (m : Memory) (a : Nat) (w : Byte) (hm : m.wf) (ha : a < 4096) : (memWrite m a w).wf := by
  refine ⟨memWrite_sorted m a w hm.1, fun c hc => ?_⟩
  rcases mem_memWrite m a w c hc with h | ⟨rfl, h⟩
  · exact hm.2 c h
  · exact ⟨ha, h⟩

/-! ## Sequences of bytes -/

/-- What every address reads as after a copy: the copied byte inside the range, the old byte outside. -/
theorem memRead_copyBytes (bs : List Byte) : ∀ (m : Memory) (a b : Nat), (m.Pairwise fun c d => c.1 < d.1) →
    memRead (copyBytes m a bs) b = if a ≤ b ∧ b < a + bs.length then bs.getD (b - a) 0#8 else memRead m b := by
  induction bs with
  | nil =>
    intro m a b _
    rw [if_neg (by simp only [List.length_nil]; omega)]
    rfl
  | cons w ws ih =>
    intro m a b hs
    rw [copyBytes, ih _ _ _ (memWrite_sorted m a w hs)]
    simp only [List.length_cons]
    by_cases hb : b = a
    · subst hb
      rw [if_neg (by omega), if_pos (by omega), memRead_memWrite_self _ _ _ hs]
      simp
    · rw [memRead_memWrite_ne _ _ _ _ hb]
      by_cases h : a + 1 ≤ b ∧ b < a + 1 + ws.length
      · rw [if_pos h, if_pos (by omega)]
        obtain ⟨k, rfl⟩ := Nat.exists_eq_add_of_lt (show a < b by omega)
        simp [show a + k + 1 - (a + 1) = k by omega, show a + k + 1 - a = k + 1 by omega]
      · rw [if_neg h, if_neg (by omega)]

/-- A copy leaves every address outside its range alone, in any memory. -/
theorem memRead_copyBytes_outside (bs : List Byte) : ∀ (m : Memory) (a b : Nat), ¬(a ≤ b ∧ b < a + bs.length) →
    memRead (copyBytes m a bs) b = memRead m b := by
  induction bs with
  | nil => intros; rfl
  | cons w ws ih =>
    intro m a b h
    simp only [List.length_cons] at h
    rw [copyBytes, ih _ _ _ (by omega)]
    by_cases hb : b = a
    · omega
    · exact memRead_memWrite_ne _ _ _ _ hb

theorem copyBytes_wf (bs : List Byte) : ∀ (m : Memory) (a : Nat), m.wf → a + bs.length ≤ 4096 →
    (copyBytes m a bs).wf := by
  induction bs with
  | nil => intro m a hm _; exact hm
  | cons w ws ih =>
    intro m a hm h
    simp only [List.length_cons] at h
    exact ih _ _ (memWrite_wf m a w hm (by omega)) (by omega)

/-- The one rule of the sequences: all the bytes are in range, or the first address out of range is reported. -/
theorem writeBytes_eq (bs : List Byte) : ∀ (m : Memory) (a : Nat),
    writeBytes m a bs =
      if bs = [] ∨ a + bs.length ≤ 4096 then .ok (copyBytes m a bs) else .error (if a > 4095 then a else 4096) := by
  induction bs with
  | nil => intro m a; simp [writeBytes, copyBytes]
  | cons w ws ih =>
    intro m a
    simp only [writeBytes, writeByte, Config.memSize, List.length_cons]
    by_cases ha : a < 4096
    · rw [if_pos ha]
      simp only [ih, copyBytes]
      by_cases hw : ws = []
      · subst hw; simp; omega
      · have : 0 < ws.length := List.length_pos_iff.2 hw
        simp only [hw, false_or, reduceCtorEq]
        by_cases h : a + (ws.length + 1) ≤ 4096
        · rw [if_pos (by omega), if_pos h]
        · rw [if_neg (by omega), if_neg h, if_neg (by omega : ¬ a > 4095)]
          split
          · simp
            omega
          · simp
    · rw [if_neg ha]
      simp only [reduceCtorEq, false_or]
      rw [if_neg (by omega), if_pos (by omega)]

theorem readBytes_eq (m : Memory) (n : Nat) : ∀ a : Nat,
    readBytes m a n =
      if n = 0 ∨ a + n ≤ 4096 then .ok ((List.range n).map fun k => memRead m (a + k))
      else .error (if a > 4095 then a else 4096) := by
  induction n with
  | zero => intro a; simp [readBytes]
  | succ n ih =>
    intro a
    simp only [readBytes, readByte, Config.memSize]
    by_cases ha : a < 4096
    · rw [if_pos ha]
      simp only [ih]
      by_cases hn : n = 0
      · subst hn; simp [show a + 1 ≤ 4096 by omega]
      · by_cases h : a + (n + 1) ≤ 4096
        · rw [if_pos (by omega), if_pos (by omega)]
          simp [List.range_succ_eq_map, Function.comp_def, Nat.add_assoc, Nat.add_comm 1]
        · simp only [show ¬(n = 0 ∨ a + 1 + n ≤ 4096) by omega, show ¬(n + 1 = 0 ∨ a + (n + 1) ≤ 4096) by omega,
            show ¬a > 4095 by omega, if_false]
          split
          · congr 1; omega
          · rfl
    · simp only [if_neg ha, show ¬(n + 1 = 0 ∨ a + (n + 1) ≤ 4096) by omega, show a > 4095 by omega, if_false, if_true]

end Sys2Proof.Machine
end

