-- ==== Sys2Proof/Laws/State.lean ====
section
/-! SUPPORT. What each update of one piece of state does to every field: one lemma per field per update, so that no
proof unfolds a record update; then what the updates do to the reads of one register and one key. -/

namespace Sys2Proof.Machine

/-! ## State.setV -/

@[simp] theorem State.setV_v (s : State) (w : RegFile) : (s.setV w).v = w := rfl
@[simp] theorem State.setV_i (s : State) (w : RegFile) : (s.setV w).i = s.i := rfl
@[simp] theorem State.setV_pc (s : State) (w : RegFile) : (s.setV w).pc = s.pc := rfl
@[simp] theorem State.setV_sp (s : State) (w : RegFile) : (s.setV w).sp = s.sp := rfl
@[simp] theorem State.setV_stack (s : State) (w : RegFile) : (s.setV w).stack = s.stack := rfl
@[simp] theorem State.setV_dt (s : State) (w : RegFile) : (s.setV w).dt = s.dt := rfl
@[simp] theorem State.setV_st (s : State) (w : RegFile) : (s.setV w).st = s.st := rfl
@[simp] theorem State.setV_wait (s : State) (w : RegFile) : (s.setV w).wait = s.wait := rfl
@[simp] theorem State.setV_mem (s : State) (w : RegFile) : (s.setV w).mem = s.mem := rfl
@[simp] theorem State.setV_disp (s : State) (w : RegFile) : (s.setV w).disp = s.disp := rfl
@[simp] theorem State.setV_dirty (s : State) (w : RegFile) : (s.setV w).dirty = s.dirty := rfl
@[simp] theorem State.setV_key (s : State) (w : RegFile) : (s.setV w).key = s.key := rfl
@[simp] theorem State.setV_fault (s : State) (w : RegFile) : (s.setV w).fault = s.fault := rfl
@[simp] theorem State.setV_tone (s : State) (w : RegFile) : (s.setV w).tone = s.tone := rfl
@[simp] theorem State.setV_loadOpen (s : State) (w : RegFile) : (s.setV w).loadOpen = s.loadOpen := rfl
@[simp] theorem State.setV_events (s : State) (w : RegFile) : (s.setV w).events = s.events := rfl
@[simp] theorem State.setV_agenda (s : State) (w : RegFile) : (s.setV w).agenda = s.agenda := rfl
@[simp] theorem State.setV_grants (s : State) (w : RegFile) : (s.setV w).grants = s.grants := rfl
@[simp] theorem State.setV_draws (s : State) (w : RegFile) : (s.setV w).draws = s.draws := rfl

/-! ## State.setReg -/

@[simp] theorem State.setReg_v (s : State) (x : Nibble) (b : Byte) : (s.setReg x b).v = s.v.set x.toNat b x.isLt := rfl
@[simp] theorem State.setReg_i (s : State) (x : Nibble) (b : Byte) : (s.setReg x b).i = s.i := rfl
@[simp] theorem State.setReg_pc (s : State) (x : Nibble) (b : Byte) : (s.setReg x b).pc = s.pc := rfl
@[simp] theorem State.setReg_sp (s : State) (x : Nibble) (b : Byte) : (s.setReg x b).sp = s.sp := rfl
@[simp] theorem State.setReg_stack (s : State) (x : Nibble) (b : Byte) : (s.setReg x b).stack = s.stack := rfl
@[simp] theorem State.setReg_dt (s : State) (x : Nibble) (b : Byte) : (s.setReg x b).dt = s.dt := rfl
@[simp] theorem State.setReg_st (s : State) (x : Nibble) (b : Byte) : (s.setReg x b).st = s.st := rfl
@[simp] theorem State.setReg_wait (s : State) (x : Nibble) (b : Byte) : (s.setReg x b).wait = s.wait := rfl
@[simp] theorem State.setReg_mem (s : State) (x : Nibble) (b : Byte) : (s.setReg x b).mem = s.mem := rfl
@[simp] theorem State.setReg_disp (s : State) (x : Nibble) (b : Byte) : (s.setReg x b).disp = s.disp := rfl
@[simp] theorem State.setReg_dirty (s : State) (x : Nibble) (b : Byte) : (s.setReg x b).dirty = s.dirty := rfl
@[simp] theorem State.setReg_key (s : State) (x : Nibble) (b : Byte) : (s.setReg x b).key = s.key := rfl
@[simp] theorem State.setReg_fault (s : State) (x : Nibble) (b : Byte) : (s.setReg x b).fault = s.fault := rfl
@[simp] theorem State.setReg_tone (s : State) (x : Nibble) (b : Byte) : (s.setReg x b).tone = s.tone := rfl
@[simp] theorem State.setReg_loadOpen (s : State) (x : Nibble) (b : Byte) : (s.setReg x b).loadOpen = s.loadOpen := rfl
@[simp] theorem State.setReg_events (s : State) (x : Nibble) (b : Byte) : (s.setReg x b).events = s.events := rfl
@[simp] theorem State.setReg_agenda (s : State) (x : Nibble) (b : Byte) : (s.setReg x b).agenda = s.agenda := rfl
@[simp] theorem State.setReg_grants (s : State) (x : Nibble) (b : Byte) : (s.setReg x b).grants = s.grants := rfl
@[simp] theorem State.setReg_draws (s : State) (x : Nibble) (b : Byte) : (s.setReg x b).draws = s.draws := rfl

/-! ## State.setI -/

@[simp] theorem State.setI_v (s : State) (a : Word) : (s.setI a).v = s.v := rfl
@[simp] theorem State.setI_i (s : State) (a : Word) : (s.setI a).i = a := rfl
@[simp] theorem State.setI_pc (s : State) (a : Word) : (s.setI a).pc = s.pc := rfl
@[simp] theorem State.setI_sp (s : State) (a : Word) : (s.setI a).sp = s.sp := rfl
@[simp] theorem State.setI_stack (s : State) (a : Word) : (s.setI a).stack = s.stack := rfl
@[simp] theorem State.setI_dt (s : State) (a : Word) : (s.setI a).dt = s.dt := rfl
@[simp] theorem State.setI_st (s : State) (a : Word) : (s.setI a).st = s.st := rfl
@[simp] theorem State.setI_wait (s : State) (a : Word) : (s.setI a).wait = s.wait := rfl
@[simp] theorem State.setI_mem (s : State) (a : Word) : (s.setI a).mem = s.mem := rfl
@[simp] theorem State.setI_disp (s : State) (a : Word) : (s.setI a).disp = s.disp := rfl
@[simp] theorem State.setI_dirty (s : State) (a : Word) : (s.setI a).dirty = s.dirty := rfl
@[simp] theorem State.setI_key (s : State) (a : Word) : (s.setI a).key = s.key := rfl
@[simp] theorem State.setI_fault (s : State) (a : Word) : (s.setI a).fault = s.fault := rfl
@[simp] theorem State.setI_tone (s : State) (a : Word) : (s.setI a).tone = s.tone := rfl
@[simp] theorem State.setI_loadOpen (s : State) (a : Word) : (s.setI a).loadOpen = s.loadOpen := rfl
@[simp] theorem State.setI_events (s : State) (a : Word) : (s.setI a).events = s.events := rfl
@[simp] theorem State.setI_agenda (s : State) (a : Word) : (s.setI a).agenda = s.agenda := rfl
@[simp] theorem State.setI_grants (s : State) (a : Word) : (s.setI a).grants = s.grants := rfl
@[simp] theorem State.setI_draws (s : State) (a : Word) : (s.setI a).draws = s.draws := rfl

/-! ## State.setPc -/

@[simp] theorem State.setPc_v (s : State) (a : Word) : (s.setPc a).v = s.v := rfl
@[simp] theorem State.setPc_i (s : State) (a : Word) : (s.setPc a).i = s.i := rfl
@[simp] theorem State.setPc_pc (s : State) (a : Word) : (s.setPc a).pc = a := rfl
@[simp] theorem State.setPc_sp (s : State) (a : Word) : (s.setPc a).sp = s.sp := rfl
@[simp] theorem State.setPc_stack (s : State) (a : Word) : (s.setPc a).stack = s.stack := rfl
@[simp] theorem State.setPc_dt (s : State) (a : Word) : (s.setPc a).dt = s.dt := rfl
@[simp] theorem State.setPc_st (s : State) (a : Word) : (s.setPc a).st = s.st := rfl
@[simp] theorem State.setPc_wait (s : State) (a : Word) : (s.setPc a).wait = s.wait := rfl
@[simp] theorem State.setPc_mem (s : State) (a : Word) : (s.setPc a).mem = s.mem := rfl
@[simp] theorem State.setPc_disp (s : State) (a : Word) : (s.setPc a).disp = s.disp := rfl
@[simp] theorem State.setPc_dirty (s : State) (a : Word) : (s.setPc a).dirty = s.dirty := rfl
@[simp] theorem State.setPc_key (s : State) (a : Word) : (s.setPc a).key = s.key := rfl
@[simp] theorem State.setPc_fault (s : State) (a : Word) : (s.setPc a).fault = s.fault := rfl
@[simp] theorem State.setPc_tone (s : State) (a : Word) : (s.setPc a).tone = s.tone := rfl
@[simp] theorem State.setPc_loadOpen (s : State) (a : Word) : (s.setPc a).loadOpen = s.loadOpen := rfl
@[simp] theorem State.setPc_events (s : State) (a : Word) : (s.setPc a).events = s.events := rfl
@[simp] theorem State.setPc_agenda (s : State) (a : Word) : (s.setPc a).agenda = s.agenda := rfl
@[simp] theorem State.setPc_grants (s : State) (a : Word) : (s.setPc a).grants = s.grants := rfl
@[simp] theorem State.setPc_draws (s : State) (a : Word) : (s.setPc a).draws = s.draws := rfl

/-! ## State.setStack -/

@[simp] theorem State.setStack_v (s : State) (k : Stack) (d : Fin 17) : (s.setStack k d).v = s.v := rfl
@[simp] theorem State.setStack_i (s : State) (k : Stack) (d : Fin 17) : (s.setStack k d).i = s.i := rfl
@[simp] theorem State.setStack_pc (s : State) (k : Stack) (d : Fin 17) : (s.setStack k d).pc = s.pc := rfl
@[simp] theorem State.setStack_sp (s : State) (k : Stack) (d : Fin 17) : (s.setStack k d).sp = d := rfl
@[simp] theorem State.setStack_stack (s : State) (k : Stack) (d : Fin 17) : (s.setStack k d).stack = k := rfl
@[simp] theorem State.setStack_dt (s : State) (k : Stack) (d : Fin 17) : (s.setStack k d).dt = s.dt := rfl
@[simp] theorem State.setStack_st (s : State) (k : Stack) (d : Fin 17) : (s.setStack k d).st = s.st := rfl
@[simp] theorem State.setStack_wait (s : State) (k : Stack) (d : Fin 17) : (s.setStack k d).wait = s.wait := rfl
@[simp] theorem State.setStack_mem (s : State) (k : Stack) (d : Fin 17) : (s.setStack k d).mem = s.mem := rfl
@[simp] theorem State.setStack_disp (s : State) (k : Stack) (d : Fin 17) : (s.setStack k d).disp = s.disp := rfl
@[simp] theorem State.setStack_dirty (s : State) (k : Stack) (d : Fin 17) : (s.setStack k d).dirty = s.dirty := rfl
@[simp] theorem State.setStack_key (s : State) (k : Stack) (d : Fin 17) : (s.setStack k d).key = s.key := rfl
@[simp] theorem State.setStack_fault (s : State) (k : Stack) (d : Fin 17) : (s.setStack k d).fault = s.fault := rfl
@[simp] theorem State.setStack_tone (s : State) (k : Stack) (d : Fin 17) : (s.setStack k d).tone = s.tone := rfl
@[simp] theorem State.setStack_loadOpen (s : State) (k : Stack) (d : Fin 17) : (s.setStack k d).loadOpen = s.loadOpen := rfl
@[simp] theorem State.setStack_events (s : State) (k : Stack) (d : Fin 17) : (s.setStack k d).events = s.events := rfl
@[simp] theorem State.setStack_agenda (s : State) (k : Stack) (d : Fin 17) : (s.setStack k d).agenda = s.agenda := rfl
@[simp] theorem State.setStack_grants (s : State) (k : Stack) (d : Fin 17) : (s.setStack k d).grants = s.grants := rfl
@[simp] theorem State.setStack_draws (s : State) (k : Stack) (d : Fin 17) : (s.setStack k d).draws = s.draws := rfl

/-! ## State.setDt -/

@[simp] theorem State.setDt_v (s : State) (b : Byte) : (s.setDt b).v = s.v := rfl
@[simp] theorem State.setDt_i (s : State) (b : Byte) : (s.setDt b).i = s.i := rfl
@[simp] theorem State.setDt_pc (s : State) (b : Byte) : (s.setDt b).pc = s.pc := rfl
@[simp] theorem State.setDt_sp (s : State) (b : Byte) : (s.setDt b).sp = s.sp := rfl
@[simp] theorem State.setDt_stack (s : State) (b : Byte) : (s.setDt b).stack = s.stack := rfl
@[simp] theorem State.setDt_dt (s : State) (b : Byte) : (s.setDt b).dt = b := rfl
@[simp] theorem State.setDt_st (s : State) (b : Byte) : (s.setDt b).st = s.st := rfl
@[simp] theorem State.setDt_wait (s : State) (b : Byte) : (s.setDt b).wait = s.wait := rfl
@[simp] theorem State.setDt_mem (s : State) (b : Byte) : (s.setDt b).mem = s.mem := rfl
@[simp] theorem State.setDt_disp (s : State) (b : Byte) : (s.setDt b).disp = s.disp := rfl
@[simp] theorem State.setDt_dirty (s : State) (b : Byte) : (s.setDt b).dirty = s.dirty := rfl
@[simp] theorem State.setDt_key (s : State) (b : Byte) : (s.setDt b).key = s.key := rfl
@[simp] theorem State.setDt_fault (s : State) (b : Byte) : (s.setDt b).fault = s.fault := rfl
@[simp] theorem State.setDt_tone (s : State) (b : Byte) : (s.setDt b).tone = s.tone := rfl
@[simp] theorem State.setDt_loadOpen (s : State) (b : Byte) : (s.setDt b).loadOpen = s.loadOpen := rfl
@[simp] theorem State.setDt_events (s : State) (b : Byte) : (s.setDt b).events = s.events := rfl
@[simp] theorem State.setDt_agenda (s : State) (b : Byte) : (s.setDt b).agenda = s.agenda := rfl
@[simp] theorem State.setDt_grants (s : State) (b : Byte) : (s.setDt b).grants = s.grants := rfl
@[simp] theorem State.setDt_draws (s : State) (b : Byte) : (s.setDt b).draws = s.draws := rfl

/-! ## State.setSt -/

@[simp] theorem State.setSt_v (s : State) (b : Byte) : (s.setSt b).v = s.v := rfl
@[simp] theorem State.setSt_i (s : State) (b : Byte) : (s.setSt b).i = s.i := rfl
@[simp] theorem State.setSt_pc (s : State) (b : Byte) : (s.setSt b).pc = s.pc := rfl
@[simp] theorem State.setSt_sp (s : State) (b : Byte) : (s.setSt b).sp = s.sp := rfl
@[simp] theorem State.setSt_stack (s : State) (b : Byte) : (s.setSt b).stack = s.stack := rfl
@[simp] theorem State.setSt_dt (s : State) (b : Byte) : (s.setSt b).dt = s.dt := rfl
@[simp] theorem State.setSt_st (s : State) (b : Byte) : (s.setSt b).st = b := rfl
@[simp] theorem State.setSt_wait (s : State) (b : Byte) : (s.setSt b).wait = s.wait := rfl
@[simp] theorem State.setSt_mem (s : State) (b : Byte) : (s.setSt b).mem = s.mem := rfl
@[simp] theorem State.setSt_disp (s : State) (b : Byte) : (s.setSt b).disp = s.disp := rfl
@[simp] theorem State.setSt_dirty (s : State) (b : Byte) : (s.setSt b).dirty = s.dirty := rfl
@[simp] theorem State.setSt_key (s : State) (b : Byte) : (s.setSt b).key = s.key := rfl
@[simp] theorem State.setSt_fault (s : State) (b : Byte) : (s.setSt b).fault = s.fault := rfl
@[simp] theorem State.setSt_tone (s : State) (b : Byte) : (s.setSt b).tone = s.tone := rfl
@[simp] theorem State.setSt_loadOpen (s : State) (b : Byte) : (s.setSt b).loadOpen = s.loadOpen := rfl
@[simp] theorem State.setSt_events (s : State) (b : Byte) : (s.setSt b).events = s.events := rfl
@[simp] theorem State.setSt_agenda (s : State) (b : Byte) : (s.setSt b).agenda = s.agenda := rfl
@[simp] theorem State.setSt_grants (s : State) (b : Byte) : (s.setSt b).grants = s.grants := rfl
@[simp] theorem State.setSt_draws (s : State) (b : Byte) : (s.setSt b).draws = s.draws := rfl

/-! ## State.setWait -/

@[simp] theorem State.setWait_v (s : State) (w : Wait) : (s.setWait w).v = s.v := rfl
@[simp] theorem State.setWait_i (s : State) (w : Wait) : (s.setWait w).i = s.i := rfl
@[simp] theorem State.setWait_pc (s : State) (w : Wait) : (s.setWait w).pc = s.pc := rfl
@[simp] theorem State.setWait_sp (s : State) (w : Wait) : (s.setWait w).sp = s.sp := rfl
@[simp] theorem State.setWait_stack (s : State) (w : Wait) : (s.setWait w).stack = s.stack := rfl
@[simp] theorem State.setWait_dt (s : State) (w : Wait) : (s.setWait w).dt = s.dt := rfl
@[simp] theorem State.setWait_st (s : State) (w : Wait) : (s.setWait w).st = s.st := rfl
@[simp] theorem State.setWait_wait (s : State) (w : Wait) : (s.setWait w).wait = w := rfl
@[simp] theorem State.setWait_mem (s : State) (w : Wait) : (s.setWait w).mem = s.mem := rfl
@[simp] theorem State.setWait_disp (s : State) (w : Wait) : (s.setWait w).disp = s.disp := rfl
@[simp] theorem State.setWait_dirty (s : State) (w : Wait) : (s.setWait w).dirty = s.dirty := rfl
@[simp] theorem State.setWait_key (s : State) (w : Wait) : (s.setWait w).key = s.key := rfl
@[simp] theorem State.setWait_fault (s : State) (w : Wait) : (s.setWait w).fault = s.fault := rfl
@[simp] theorem State.setWait_tone (s : State) (w : Wait) : (s.setWait w).tone = s.tone := rfl
@[simp] theorem State.setWait_loadOpen (s : State) (w : Wait) : (s.setWait w).loadOpen = s.loadOpen := rfl
@[simp] theorem State.setWait_events (s : State) (w : Wait) : (s.setWait w).events = s.events := rfl
@[simp] theorem State.setWait_agenda (s : State) (w : Wait) : (s.setWait w).agenda = s.agenda := rfl
@[simp] theorem State.setWait_grants (s : State) (w : Wait) : (s.setWait w).grants = s.grants := rfl
@[simp] theorem State.setWait_draws (s : State) (w : Wait) : (s.setWait w).draws = s.draws := rfl

/-! ## State.setMem -/

@[simp] theorem State.setMem_v (s : State) (m : Memory) : (s.setMem m).v = s.v := rfl
@[simp] theorem State.setMem_i (s : State) (m : Memory) : (s.setMem m).i = s.i := rfl
@[simp] theorem State.setMem_pc (s : State) (m : Memory) : (s.setMem m).pc = s.pc := rfl
@[simp] theorem State.setMem_sp (s : State) (m : Memory) : (s.setMem m).sp = s.sp := rfl
@[simp] theorem State.setMem_stack (s : State) (m : Memory) : (s.setMem m).stack = s.stack := rfl
@[simp] theorem State.setMem_dt (s : State) (m : Memory) : (s.setMem m).dt = s.dt := rfl
@[simp] theorem State.setMem_st (s : State) (m : Memory) : (s.setMem m).st = s.st := rfl
@[simp] theorem State.setMem_wait (s : State) (m : Memory) : (s.setMem m).wait = s.wait := rfl
@[simp] theorem State.setMem_mem (s : State) (m : Memory) : (s.setMem m).mem = m := rfl
@[simp] theorem State.setMem_disp (s : State) (m : Memory) : (s.setMem m).disp = s.disp := rfl
@[simp] theorem State.setMem_dirty (s : State) (m : Memory) : (s.setMem m).dirty = s.dirty := rfl
@[simp] theorem State.setMem_key (s : State) (m : Memory) : (s.setMem m).key = s.key := rfl
@[simp] theorem State.setMem_fault (s : State) (m : Memory) : (s.setMem m).fault = s.fault := rfl
@[simp] theorem State.setMem_tone (s : State) (m : Memory) : (s.setMem m).tone = s.tone := rfl
@[simp] theorem State.setMem_loadOpen (s : State) (m : Memory) : (s.setMem m).loadOpen = s.loadOpen := rfl
@[simp] theorem State.setMem_events (s : State) (m : Memory) : (s.setMem m).events = s.events := rfl
@[simp] theorem State.setMem_agenda (s : State) (m : Memory) : (s.setMem m).agenda = s.agenda := rfl
@[simp] theorem State.setMem_grants (s : State) (m : Memory) : (s.setMem m).grants = s.grants := rfl
@[simp] theorem State.setMem_draws (s : State) (m : Memory) : (s.setMem m).draws = s.draws := rfl

/-! ## State.setDisp -/

@[simp] theorem State.setDisp_v (s : State) (d : Display) : (s.setDisp d).v = s.v := rfl
@[simp] theorem State.setDisp_i (s : State) (d : Display) : (s.setDisp d).i = s.i := rfl
@[simp] theorem State.setDisp_pc (s : State) (d : Display) : (s.setDisp d).pc = s.pc := rfl
@[simp] theorem State.setDisp_sp (s : State) (d : Display) : (s.setDisp d).sp = s.sp := rfl
@[simp] theorem State.setDisp_stack (s : State) (d : Display) : (s.setDisp d).stack = s.stack := rfl
@[simp] theorem State.setDisp_dt (s : State) (d : Display) : (s.setDisp d).dt = s.dt := rfl
@[simp] theorem State.setDisp_st (s : State) (d : Display) : (s.setDisp d).st = s.st := rfl
@[simp] theorem State.setDisp_wait (s : State) (d : Display) : (s.setDisp d).wait = s.wait := rfl
@[simp] theorem State.setDisp_mem (s : State) (d : Display) : (s.setDisp d).mem = s.mem := rfl
@[simp] theorem State.setDisp_disp (s : State) (d : Display) : (s.setDisp d).disp = d := rfl
@[simp] theorem State.setDisp_dirty (s : State) (d : Display) : (s.setDisp d).dirty = s.dirty := rfl
@[simp] theorem State.setDisp_key (s : State) (d : Display) : (s.setDisp d).key = s.key := rfl
@[simp] theorem State.setDisp_fault (s : State) (d : Display) : (s.setDisp d).fault = s.fault := rfl
@[simp] theorem State.setDisp_tone (s : State) (d : Display) : (s.setDisp d).tone = s.tone := rfl
@[simp] theorem State.setDisp_loadOpen (s : State) (d : Display) : (s.setDisp d).loadOpen = s.loadOpen := rfl
@[simp] theorem State.setDisp_events (s : State) (d : Display) : (s.setDisp d).events = s.events := rfl
@[simp] theorem State.setDisp_agenda (s : State) (d : Display) : (s.setDisp d).agenda = s.agenda := rfl
@[simp] theorem State.setDisp_grants (s : State) (d : Display) : (s.setDisp d).grants = s.grants := rfl
@[simp] theorem State.setDisp_draws (s : State) (d : Display) : (s.setDisp d).draws = s.draws := rfl

/-! ## State.setDirty -/

@[simp] theorem State.setDirty_v (s : State) (b : Bool) : (s.setDirty b).v = s.v := rfl
@[simp] theorem State.setDirty_i (s : State) (b : Bool) : (s.setDirty b).i = s.i := rfl
@[simp] theorem State.setDirty_pc (s : State) (b : Bool) : (s.setDirty b).pc = s.pc := rfl
@[simp] theorem State.setDirty_sp (s : State) (b : Bool) : (s.setDirty b).sp = s.sp := rfl
@[simp] theorem State.setDirty_stack (s : State) (b : Bool) : (s.setDirty b).stack = s.stack := rfl
@[simp] theorem State.setDirty_dt (s : State) (b : Bool) : (s.setDirty b).dt = s.dt := rfl
@[simp] theorem State.setDirty_st (s : State) (b : Bool) : (s.setDirty b).st = s.st := rfl
@[simp] theorem State.setDirty_wait (s : State) (b : Bool) : (s.setDirty b).wait = s.wait := rfl
@[simp] theorem State.setDirty_mem (s : State) (b : Bool) : (s.setDirty b).mem = s.mem := rfl
@[simp] theorem State.setDirty_disp (s : State) (b : Bool) : (s.setDirty b).disp = s.disp := rfl
@[simp] theorem State.setDirty_dirty (s : State) (b : Bool) : (s.setDirty b).dirty = b := rfl
@[simp] theorem State.setDirty_key (s : State) (b : Bool) : (s.setDirty b).key = s.key := rfl
@[simp] theorem State.setDirty_fault (s : State) (b : Bool) : (s.setDirty b).fault = s.fault := rfl
@[simp] theorem State.setDirty_tone (s : State) (b : Bool) : (s.setDirty b).tone = s.tone := rfl
@[simp] theorem State.setDirty_loadOpen (s : State) (b : Bool) : (s.setDirty b).loadOpen = s.loadOpen := rfl
@[simp] theorem State.setDirty_events (s : State) (b : Bool) : (s.setDirty b).events = s.events := rfl
@[simp] theorem State.setDirty_agenda (s : State) (b : Bool) : (s.setDirty b).agenda = s.agenda := rfl
@[simp] theorem State.setDirty_grants (s : State) (b : Bool) : (s.setDirty b).grants = s.grants := rfl
@[simp] theorem State.setDirty_draws (s : State) (b : Bool) : (s.setDirty b).draws = s.draws := rfl

/-! ## State.setKeyTo -/

@[simp] theorem State.setKeyTo_v (s : State) (k : Nibble) (b : Bool) : (s.setKeyTo k b).v = s.v := rfl
@[simp] theorem State.setKeyTo_i (s : State) (k : Nibble) (b : Bool) : (s.setKeyTo k b).i = s.i := rfl
@[simp] theorem State.setKeyTo_pc (s : State) (k : Nibble) (b : Bool) : (s.setKeyTo k b).pc = s.pc := rfl
@[simp] theorem State.setKeyTo_sp (s : State) (k : Nibble) (b : Bool) : (s.setKeyTo k b).sp = s.sp := rfl
@[simp] theorem State.setKeyTo_stack (s : State) (k : Nibble) (b : Bool) : (s.setKeyTo k b).stack = s.stack := rfl
@[simp] theorem State.setKeyTo_dt (s : State) (k : Nibble) (b : Bool) : (s.setKeyTo k b).dt = s.dt := rfl
@[simp] theorem State.setKeyTo_st (s : State) (k : Nibble) (b : Bool) : (s.setKeyTo k b).st = s.st := rfl
@[simp] theorem State.setKeyTo_wait (s : State) (k : Nibble) (b : Bool) : (s.setKeyTo k b).wait = s.wait := rfl
@[simp] theorem State.setKeyTo_mem (s : State) (k : Nibble) (b : Bool) : (s.setKeyTo k b).mem = s.mem := rfl
@[simp] theorem State.setKeyTo_disp (s : State) (k : Nibble) (b : Bool) : (s.setKeyTo k b).disp = s.disp := rfl
@[simp] theorem State.setKeyTo_dirty (s : State) (k : Nibble) (b : Bool) : (s.setKeyTo k b).dirty = s.dirty := rfl
@[simp] theorem State.setKeyTo_key (s : State) (k : Nibble) (b : Bool) : (s.setKeyTo k b).key = s.key.set k.toNat b k.isLt := rfl
@[simp] theorem State.setKeyTo_fault (s : State) (k : Nibble) (b : Bool) : (s.setKeyTo k b).fault = s.fault := rfl
@[simp] theorem State.setKeyTo_tone (s : State) (k : Nibble) (b : Bool) : (s.setKeyTo k b).tone = s.tone := rfl
@[simp] theorem State.setKeyTo_loadOpen (s : State) (k : Nibble) (b : Bool) : (s.setKeyTo k b).loadOpen = s.loadOpen := rfl
@[simp] theorem State.setKeyTo_events (s : State) (k : Nibble) (b : Bool) : (s.setKeyTo k b).events = s.events := rfl
@[simp] theorem State.setKeyTo_agenda (s : State) (k : Nibble) (b : Bool) : (s.setKeyTo k b).agenda = s.agenda := rfl
@[simp] theorem State.setKeyTo_grants (s : State) (k : Nibble) (b : Bool) : (s.setKeyTo k b).grants = s.grants := rfl
@[simp] theorem State.setKeyTo_draws (s : State) (k : Nibble) (b : Bool) : (s.setKeyTo k b).draws = s.draws := rfl

/-! ## State.setTone -/

@[simp] theorem State.setTone_v (s : State) (b : Bool) : (s.setTone b).v = s.v := rfl
@[simp] theorem State.setTone_i (s : State) (b : Bool) : (s.setTone b).i = s.i := rfl
@[simp] theorem State.setTone_pc (s : State) (b : Bool) : (s.setTone b).pc = s.pc := rfl
@[simp] theorem State.setTone_sp (s : State) (b : Bool) : (s.setTone b).sp = s.sp := rfl
@[simp] theorem State.setTone_stack (s : State) (b : Bool) : (s.setTone b).stack = s.stack := rfl
@[simp] theorem State.setTone_dt (s : State) (b : Bool) : (s.setTone b).dt = s.dt := rfl
@[simp] theorem State.setTone_st (s : State) (b : Bool) : (s.setTone b).st = s.st := rfl
@[simp] theorem State.setTone_wait (s : State) (b : Bool) : (s.setTone b).wait = s.wait := rfl
@[simp] theorem State.setTone_mem (s : State) (b : Bool) : (s.setTone b).mem = s.mem := rfl
@[simp] theorem State.setTone_disp (s : State) (b : Bool) : (s.setTone b).disp = s.disp := rfl
@[simp] theorem State.setTone_dirty (s : State) (b : Bool) : (s.setTone b).dirty = s.dirty := rfl
@[simp] theorem State.setTone_key (s : State) (b : Bool) : (s.setTone b).key = s.key := rfl
@[simp] theorem State.setTone_fault (s : State) (b : Bool) : (s.setTone b).fault = s.fault := rfl
@[simp] theorem State.setTone_tone (s : State) (b : Bool) : (s.setTone b).tone = b := rfl
@[simp] theorem State.setTone_loadOpen (s : State) (b : Bool) : (s.setTone b).loadOpen = s.loadOpen := rfl
@[simp] theorem State.setTone_events (s : State) (b : Bool) : (s.setTone b).events = s.events := rfl
@[simp] theorem State.setTone_agenda (s : State) (b : Bool) : (s.setTone b).agenda = s.agenda := rfl
@[simp] theorem State.setTone_grants (s : State) (b : Bool) : (s.setTone b).grants = s.grants := rfl
@[simp] theorem State.setTone_draws (s : State) (b : Bool) : (s.setTone b).draws = s.draws := rfl

/-! ## State.emit -/

@[simp] theorem State.emit_v (s : State) (e : Event) : (s.emit e).v = s.v := rfl
@[simp] theorem State.emit_i (s : State) (e : Event) : (s.emit e).i = s.i := rfl
@[simp] theorem State.emit_pc (s : State) (e : Event) : (s.emit e).pc = s.pc := rfl
@[simp] theorem State.emit_sp (s : State) (e : Event) : (s.emit e).sp = s.sp := rfl
@[simp] theorem State.emit_stack (s : State) (e : Event) : (s.emit e).stack = s.stack := rfl
@[simp] theorem State.emit_dt (s : State) (e : Event) : (s.emit e).dt = s.dt := rfl
@[simp] theorem State.emit_st (s : State) (e : Event) : (s.emit e).st = s.st := rfl
@[simp] theorem State.emit_wait (s : State) (e : Event) : (s.emit e).wait = s.wait := rfl
@[simp] theorem State.emit_mem (s : State) (e : Event) : (s.emit e).mem = s.mem := rfl
@[simp] theorem State.emit_disp (s : State) (e : Event) : (s.emit e).disp = s.disp := rfl
@[simp] theorem State.emit_dirty (s : State) (e : Event) : (s.emit e).dirty = s.dirty := rfl
@[simp] theorem State.emit_key (s : State) (e : Event) : (s.emit e).key = s.key := rfl
@[simp] theorem State.emit_fault (s : State) (e : Event) : (s.emit e).fault = s.fault := rfl
@[simp] theorem State.emit_tone (s : State) (e : Event) : (s.emit e).tone = s.tone := rfl
@[simp] theorem State.emit_loadOpen (s : State) (e : Event) : (s.emit e).loadOpen = s.loadOpen := rfl
@[simp] theorem State.emit_events (s : State) (e : Event) : (s.emit e).events = e :: s.events := rfl
@[simp] theorem State.emit_agenda (s : State) (e : Event) : (s.emit e).agenda = s.agenda := rfl
@[simp] theorem State.emit_grants (s : State) (e : Event) : (s.emit e).grants = s.grants := rfl
@[simp] theorem State.emit_draws (s : State) (e : Event) : (s.emit e).draws = s.draws := rfl

/-! ## State.closeLoad -/

@[simp] theorem State.closeLoad_v (s : State) : (s.closeLoad).v = s.v := rfl
@[simp] theorem State.closeLoad_i (s : State) : (s.closeLoad).i = s.i := rfl
@[simp] theorem State.closeLoad_pc (s : State) : (s.closeLoad).pc = s.pc := rfl
@[simp] theorem State.closeLoad_sp (s : State) : (s.closeLoad).sp = s.sp := rfl
@[simp] theorem State.closeLoad_stack (s : State) : (s.closeLoad).stack = s.stack := rfl
@[simp] theorem State.closeLoad_dt (s : State) : (s.closeLoad).dt = s.dt := rfl
@[simp] theorem State.closeLoad_st (s : State) : (s.closeLoad).st = s.st := rfl
@[simp] theorem State.closeLoad_wait (s : State) : (s.closeLoad).wait = s.wait := rfl
@[simp] theorem State.closeLoad_mem (s : State) : (s.closeLoad).mem = s.mem := rfl
@[simp] theorem State.closeLoad_disp (s : State) : (s.closeLoad).disp = s.disp := rfl
@[simp] theorem State.closeLoad_dirty (s : State) : (s.closeLoad).dirty = s.dirty := rfl
@[simp] theorem State.closeLoad_key (s : State) : (s.closeLoad).key = s.key := rfl
@[simp] theorem State.closeLoad_fault (s : State) : (s.closeLoad).fault = s.fault := rfl
@[simp] theorem State.closeLoad_tone (s : State) : (s.closeLoad).tone = s.tone := rfl
@[simp] theorem State.closeLoad_loadOpen (s : State) : (s.closeLoad).loadOpen = false := rfl
@[simp] theorem State.closeLoad_events (s : State) : (s.closeLoad).events = s.events := rfl
@[simp] theorem State.closeLoad_agenda (s : State) : (s.closeLoad).agenda = s.agenda := rfl
@[simp] theorem State.closeLoad_grants (s : State) : (s.closeLoad).grants = s.grants := rfl
@[simp] theorem State.closeLoad_draws (s : State) : (s.closeLoad).draws = s.draws := rfl

/-! ## State.countDraw -/

@[simp] theorem State.countDraw_v (s : State) : (s.countDraw).v = s.v := rfl
@[simp] theorem State.countDraw_i (s : State) : (s.countDraw).i = s.i := rfl
@[simp] theorem State.countDraw_pc (s : State) : (s.countDraw).pc = s.pc := rfl
@[simp] theorem State.countDraw_sp (s : State) : (s.countDraw).sp = s.sp := rfl
@[simp] theorem State.countDraw_stack (s : State) : (s.countDraw).stack = s.stack := rfl
@[simp] theorem State.countDraw_dt (s : State) : (s.countDraw).dt = s.dt := rfl
@[simp] theorem State.countDraw_st (s : State) : (s.countDraw).st = s.st := rfl
@[simp] theorem State.countDraw_wait (s : State) : (s.countDraw).wait = s.wait := rfl
@[simp] theorem State.countDraw_mem (s : State) : (s.countDraw).mem = s.mem := rfl
@[simp] theorem State.countDraw_disp (s : State) : (s.countDraw).disp = s.disp := rfl
@[simp] theorem State.countDraw_dirty (s : State) : (s.countDraw).dirty = s.dirty := rfl
@[simp] theorem State.countDraw_key (s : State) : (s.countDraw).key = s.key := rfl
@[simp] theorem State.countDraw_fault (s : State) : (s.countDraw).fault = s.fault := rfl
@[simp] theorem State.countDraw_tone (s : State) : (s.countDraw).tone = s.tone := rfl
@[simp] theorem State.countDraw_loadOpen (s : State) : (s.countDraw).loadOpen = s.loadOpen := rfl
@[simp] theorem State.countDraw_events (s : State) : (s.countDraw).events = s.events := rfl
@[simp] theorem State.countDraw_agenda (s : State) : (s.countDraw).agenda = s.agenda := rfl
@[simp] theorem State.countDraw_grants (s : State) : (s.countDraw).grants = s.grants := rfl
@[simp] theorem State.countDraw_draws (s : State) : (s.countDraw).draws = s.draws + 1 := rfl

/-! ## State.takeGrant -/

@[simp] theorem State.takeGrant_v (s : State) : s.takeGrant.v = s.v := by
  unfold State.takeGrant; split <;> rfl
@[simp] theorem State.takeGrant_i (s : State) : s.takeGrant.i = s.i := by
  unfold State.takeGrant; split <;> rfl
@[simp] theorem State.takeGrant_pc (s : State) : s.takeGrant.pc = s.pc := by
  unfold State.takeGrant; split <;> rfl
@[simp] theorem State.takeGrant_sp (s : State) : s.takeGrant.sp = s.sp := by
  unfold State.takeGrant; split <;> rfl
@[simp] theorem State.takeGrant_stack (s : State) : s.takeGrant.stack = s.stack := by
  unfold State.takeGrant; split <;> rfl
@[simp] theorem State.takeGrant_dt (s : State) : s.takeGrant.dt = s.dt := by
  unfold State.takeGrant; split <;> rfl
@[simp] theorem State.takeGrant_st (s : State) : s.takeGrant.st = s.st := by
  unfold State.takeGrant; split <;> rfl
@[simp] theorem State.takeGrant_wait (s : State) : s.takeGrant.wait = s.wait := by
  unfold State.takeGrant; split <;> rfl
@[simp] theorem State.takeGrant_mem (s : State) : s.takeGrant.mem = s.mem := by
  unfold State.takeGrant; split <;> rfl
@[simp] theorem State.takeGrant_disp (s : State) : s.takeGrant.disp = s.disp := by
  unfold State.takeGrant; split <;> rfl
@[simp] theorem State.takeGrant_dirty (s : State) : s.takeGrant.dirty = s.dirty := by
  unfold State.takeGrant; split <;> rfl
@[simp] theorem State.takeGrant_key (s : State) : s.takeGrant.key = s.key := by
  unfold State.takeGrant; split <;> rfl
@[simp] theorem State.takeGrant_fault (s : State) : s.takeGrant.fault = s.fault := by
  unfold State.takeGrant; split <;> rfl
@[simp] theorem State.takeGrant_tone (s : State) : s.takeGrant.tone = s.tone := by
  unfold State.takeGrant; split <;> rfl
@[simp] theorem State.takeGrant_loadOpen (s : State) : s.takeGrant.loadOpen = s.loadOpen := by
  unfold State.takeGrant; split <;> rfl
@[simp] theorem State.takeGrant_events (s : State) : s.takeGrant.events = s.events := by
  unfold State.takeGrant; split <;> rfl
@[simp] theorem State.takeGrant_draws (s : State) : s.takeGrant.draws = s.draws := by
  unfold State.takeGrant; split <;> rfl

/-- `takeGrant` touches only the agenda and the count of free grants. -/
theorem State.takeGrant_eq (s : State) :
    s.takeGrant = { s with agenda := s.agenda.tail, grants := s.grants + if s.agenda = [] then 1 else 0 } := by
  unfold State.takeGrant; split <;> simp_all

@[simp] theorem State.takeGrant_agenda (s : State) : s.takeGrant.agenda = s.agenda.tail := by
  rw [State.takeGrant_eq]
@[simp] theorem State.takeGrant_grants (s : State) :
    s.takeGrant.grants = s.grants + if s.agenda = [] then 1 else 0 := by
  rw [State.takeGrant_eq]

/-! ## Derived updates -/

@[simp] theorem State.nextPc_eq (s : State) : s.nextPc = s.setPc (s.pc + 2#16) := rfl
@[simp] theorem State.skipIf_eq (c : Bool) (s : State) :
    s.skipIf c = s.setPc (if c then s.pc + 4#16 else s.pc + 2#16) := rfl
@[simp] theorem State.setVF_eq (b : Byte) (s : State) : s.setVF b = s.setReg 15#4 b := rfl
@[simp] theorem State.setResultAndFlag_eq (x : Nibble) (r : Byte) (c : Bool) (s : State) :
    s.setResultAndFlag x r c = (s.setReg x r).setReg 15#4 (flagByte c) := rfl

/-! ## Reads of one register and one key -/

@[simp] theorem State.setV_keyDown (s : State) (w : RegFile) (r : Nibble) : (s.setV w).keyDown r = s.keyDown r := rfl
@[simp] theorem State.setReg_keyDown (s : State) (x : Nibble) (b : Byte) (r : Nibble) : (s.setReg x b).keyDown r = s.keyDown r := rfl
@[simp] theorem State.setI_reg (s : State) (a : Word) (r : Nibble) : (s.setI a).reg r = s.reg r := rfl
@[simp] theorem State.setI_keyDown (s : State) (a : Word) (r : Nibble) : (s.setI a).keyDown r = s.keyDown r := rfl
@[simp] theorem State.setPc_reg (s : State) (a : Word) (r : Nibble) : (s.setPc a).reg r = s.reg r := rfl
@[simp] theorem State.setPc_keyDown (s : State) (a : Word) (r : Nibble) : (s.setPc a).keyDown r = s.keyDown r := rfl
@[simp] theorem State.setStack_reg (s : State) (k : Stack) (d : Fin 17) (r : Nibble) : (s.setStack k d).reg r = s.reg r := rfl
@[simp] theorem State.setStack_keyDown (s : State) (k : Stack) (d : Fin 17) (r : Nibble) : (s.setStack k d).keyDown r = s.keyDown r := rfl
@[simp] theorem State.setDt_reg (s : State) (b : Byte) (r : Nibble) : (s.setDt b).reg r = s.reg r := rfl
@[simp] theorem State.setDt_keyDown (s : State) (b : Byte) (r : Nibble) : (s.setDt b).keyDown r = s.keyDown r := rfl
@[simp] theorem State.setSt_reg (s : State) (b : Byte) (r : Nibble) : (s.setSt b).reg r = s.reg r := rfl
@[simp] theorem State.setSt_keyDown (s : State) (b : Byte) (r : Nibble) : (s.setSt b).keyDown r = s.keyDown r := rfl
@[simp] theorem State.setWait_reg (s : State) (w : Wait) (r : Nibble) : (s.setWait w).reg r = s.reg r := rfl
@[simp] theorem State.setWait_keyDown (s : State) (w : Wait) (r : Nibble) : (s.setWait w).keyDown r = s.keyDown r := rfl
@[simp] theorem State.setMem_reg (s : State) (m : Memory) (r : Nibble) : (s.setMem m).reg r = s.reg r := rfl
@[simp] theorem State.setMem_keyDown (s : State) (m : Memory) (r : Nibble) : (s.setMem m).keyDown r = s.keyDown r := rfl
@[simp] theorem State.setDisp_reg (s : State) (d : Display) (r : Nibble) : (s.setDisp d).reg r = s.reg r := rfl
@[simp] theorem State.setDisp_keyDown (s : State) (d : Display) (r : Nibble) : (s.setDisp d).keyDown r = s.keyDown r := rfl
@[simp] theorem State.setDirty_reg (s : State) (b : Bool) (r : Nibble) : (s.setDirty b).reg r = s.reg r := rfl
@[simp] theorem State.setDirty_keyDown (s : State) (b : Bool) (r : Nibble) : (s.setDirty b).keyDown r = s.keyDown r := rfl
@[simp] theorem State.setKeyTo_reg (s : State) (k : Nibble) (b : Bool) (r : Nibble) : (s.setKeyTo k b).reg r = s.reg r := rfl
@[simp] theorem State.setTone_reg (s : State) (b : Bool) (r : Nibble) : (s.setTone b).reg r = s.reg r := rfl
@[simp] theorem State.setTone_keyDown (s : State) (b : Bool) (r : Nibble) : (s.setTone b).keyDown r = s.keyDown r := rfl
@[simp] theorem State.emit_reg (s : State) (e : Event) (r : Nibble) : (s.emit e).reg r = s.reg r := rfl
@[simp] theorem State.emit_keyDown (s : State) (e : Event) (r : Nibble) : (s.emit e).keyDown r = s.keyDown r := rfl
@[simp] theorem State.closeLoad_reg (s : State) (r : Nibble) : (s.closeLoad).reg r = s.reg r := rfl
@[simp] theorem State.closeLoad_keyDown (s : State) (r : Nibble) : (s.closeLoad).keyDown r = s.keyDown r := rfl
@[simp] theorem State.countDraw_reg (s : State) (r : Nibble) : (s.countDraw).reg r = s.reg r := rfl
@[simp] theorem State.countDraw_keyDown (s : State) (r : Nibble) : (s.countDraw).keyDown r = s.keyDown r := rfl

theorem nibble_toNat_ne (x y : Nibble) (h : y ≠ x) : x.toNat ≠ y.toNat := fun e => h (BitVec.eq_of_toNat_eq e.symm)

@[simp] theorem State.setReg_reg (s : State) (x : Nibble) (b : Byte) (y : Nibble) :
    (s.setReg x b).reg y = if y = x then b else s.reg y := by
  simp only [State.reg, State.setReg_v]
  by_cases h : y = x
  · subst h; simp
  · simp [h, Vector.getElem_set_ne, nibble_toNat_ne x y h]

@[simp] theorem State.setKeyTo_keyDown (s : State) (k : Nibble) (b : Bool) (j : Nibble) :
    (s.setKeyTo k b).keyDown j = if j = k then b else s.keyDown j := by
  simp only [State.keyDown, State.setKeyTo_key]
  by_cases h : j = k
  · subst h; simp
  · simp [h, Vector.getElem_set_ne, nibble_toNat_ne k j h]

@[simp] theorem State.takeGrant_reg (s : State) (r : Nibble) : s.takeGrant.reg r = s.reg r := by
  simp only [State.reg, State.takeGrant_v]

@[simp] theorem State.takeGrant_keyDown (s : State) (r : Nibble) : s.takeGrant.keyDown r = s.keyDown r := by
  simp only [State.keyDown, State.takeGrant_key]

/-- Two register files that agree on every register are the same. -/
theorem regFile_ext (s t : State) (h : ∀ k : Nibble, t.reg k = s.reg k) : t.v = s.v := by
  apply Vector.ext
  intro j hj
  have := h (BitVec.ofNat 4 j)
  simpa [State.reg, Nat.mod_eq_of_lt (show j < 16 from hj)] using this

end Sys2Proof.Machine
end

