-- ==== Sys2Proof/Laws/Ops.lean ====
section
/-! SUPPORT. What each shared operation can do, said once: the stack (`spec/10_state.md` R16), the key a wait reports
(`spec/46_cycle_and_scheduler.md` R137), the register block (`spec/42_index_memory.md` R110, R111) and the shared
fault (`spec/60_exceptions.md` R163). -/

namespace Sys2Proof.Machine

/-! ## The call stack -/

theorem push_of_lt (s : State) (a : Word) (h : s.sp.val < 16) :
    s.push a = some (s.setStack (s.stack.set s.sp.val a h) ⟨s.sp.val + 1, Nat.succ_lt_succ h⟩) := by
  simp [State.push, Config.stackDepth, h]

theorem push_of_full (s : State) (a : Word) (h : s.sp.val = 16) : s.push a = none := by
  simp [State.push, Config.stackDepth, h]

theorem pop_of_empty (s : State) (h : s.sp.val = 0) : s.pop = none := by
  simp [State.pop, h]

theorem pop_of_pos (s : State) (h : 0 < s.sp.val) :
    s.pop = some (s.stack[s.sp.val - 1]'(by have := s.sp.isLt; show s.sp.val - 1 < 16; omega),
      s.setStack s.stack ⟨s.sp.val - 1, Nat.lt_of_le_of_lt (Nat.sub_le _ _) s.sp.isLt⟩) := by
  rw [State.pop, if_neg (by omega)]

/-! ## The key a wait reports -/

/-- No key is down. -/
theorem keyPick_eq_none (keys : Keys) : keyPick keys = none ↔ ∀ k : Nibble, keys[k.toNat]'k.isLt = false := by
  simp only [keyPick, Option.map_eq_none_iff, List.findIdx?_eq_none_iff]
  constructor
  · intro h k
    have := h (keys[k.toNat]'k.isLt) (by simp)
    simpa using this
  · intro h b hb
    obtain ⟨j, hj, rfl⟩ := Vector.mem_iff_getElem.1 (Vector.mem_toList_iff.1 hb)
    have := h (BitVec.ofNat 4 j)
    simp only [BitVec.toNat_ofNat, Nat.mod_eq_of_lt (show j < 2 ^ 4 from hj)] at this
    simp [this]

/-- The reported key is the least that is down. -/
theorem keyPick_eq_some (keys : Keys) (k : Nibble) : keyPick keys = some k ↔
    keys[k.toNat]'k.isLt = true ∧ ∀ j : Nibble, j.toNat < k.toNat → keys[j.toNat]'j.isLt = false := by
  simp only [keyPick, Option.map_eq_some_iff, List.findIdx?_eq_some_iff_getElem]
  constructor
  · rintro ⟨n, ⟨hn, h1, h2⟩, rfl⟩
    have hn' : n < 16 := by simpa using hn
    simp only [BitVec.toNat_ofNat, Nat.mod_eq_of_lt (show n < 2 ^ 4 from hn')]
    refine ⟨by simpa using h1, fun j hj => ?_⟩
    simpa using h2 j.toNat hj
  · rintro ⟨h1, h2⟩
    refine ⟨k.toNat, ⟨by simpa using k.isLt, by simpa using h1, fun j hj => ?_⟩, by simp⟩
    have hk := k.isLt
    have := h2 (BitVec.ofNat 4 j) (by simpa [Nat.mod_eq_of_lt (show j < 16 by omega)] using hj)
    simp only [BitVec.toNat_ofNat, Nat.mod_eq_of_lt (show j < 2 ^ 4 by omega)] at this
    simp [this]

/-! ## The stored blocks -/

@[simp] theorem bcdDigits_length (b : Byte) : (bcdDigits b).length = 3 := rfl

theorem regBlock_length (s : State) (x : Nibble) : (s.regBlock x).length = x.toNat + 1 := by
  have := x.isLt
  simp [State.regBlock, blockLength, Config.numRegs]
  omega

theorem regBlock_getD (s : State) (x k : Nibble) (h : k.toNat ≤ x.toNat) : (s.regBlock x).getD k.toNat 0#8 = s.reg k := by
  have hk := k.isLt
  have hlt : k.toNat < (s.regBlock x).length := by rw [regBlock_length]; omega
  rw [List.getD_eq_getElem?_getD, List.getElem?_eq_getElem hlt]
  simp [State.regBlock, State.reg]

/-- What the block load leaves in register `j`. -/
theorem loadRegs_getElem (bs : List Byte) : ∀ (v : RegFile) (k j : Nat) (hj : j < 16),
    (loadRegs v k bs)[j]'hj = if k ≤ j ∧ j < k + bs.length then bs.getD (j - k) 0#8 else v[j]'hj := by
  induction bs with
  | nil =>
    intro v k j hj
    rw [if_neg (by simp only [List.length_nil]; omega)]
    rfl
  | cons b bs ih =>
    intro v k j hj
    rw [loadRegs, ih]
    simp only [List.length_cons]
    by_cases h : j = k
    · subst h
      rw [if_neg (by omega), if_pos (by omega)]
      simp
    · rw [Vector.getElem_setIfInBounds_ne hj (Ne.symm h)]
      by_cases h2 : k + 1 ≤ j ∧ j < k + 1 + bs.length
      · rw [if_pos h2, if_pos (by omega)]
        obtain ⟨d, rfl⟩ := Nat.exists_eq_add_of_lt (show k < j by omega)
        simp [show k + d + 1 - (k + 1) = d by omega, show k + d + 1 - k = d + 1 by omega]
      · rw [if_neg h2, if_neg (by omega)]

/-- The block load register by register: `V[k]` from byte `k` of the block, the registers above it unchanged. -/
theorem loadRegs_reg (s : State) (bs : List Byte) (k : Nibble) :
    (s.setV (loadRegs s.v 0 bs)).reg k = if k.toNat < bs.length then bs.getD k.toNat 0#8 else s.reg k := by
  simp only [State.reg, State.setV_v]
  rw [loadRegs_getElem _ _ _ _ k.isLt]
  simp

/-! ## Faults -/

/-- The latch is set once: it then holds the fault it holds (R27). -/
theorem latchFault_of_some (f g : Fault) (s : State) (h : s.fault = some g) : latchFault f s = s := by
  simp [latchFault, h]

/-- Setting the latch changes the latch and sends one `FaultDiag`; nothing else. -/
theorem latchFault_of_none (f : Fault) (s : State) (h : s.fault = none) :
    latchFault f s = { s with fault := some f, events := .faultDiag f :: s.events } := by
  simp [latchFault, h]

end Sys2Proof.Machine
end

