-- ==== Sys2Proof/Laws/Step.lean ====
section
/-! SUPPORT. What the fetch, the end of a cycle, the host moves and a whole step can do, said once
(`spec/46_cycle_and_scheduler.md`): `step_next_cases` is the inversion every whole-machine proof starts from. -/

namespace Sys2Proof.Machine

/-! ## Operands as natural numbers -/

@[simp] theorem addrWord_toNat (nnn : Addr) : (addrWord nnn).toNat = nnn.toNat := by
  have := nnn.isLt
  simp [addrWord]
  omega

@[simp] theorem byteWord_toNat (b : Byte) : (byteWord b).toNat = b.toNat := by
  have := b.isLt
  simp [byteWord]
  omega

@[simp] theorem lowNibble_toNat (b : Byte) : (lowNibble b).toNat = b.toNat % 16 := by
  simp [lowNibble]

@[simp] theorem countDown_toNat (b : Byte) : (countDown b).toNat = b.toNat - 1 := by
  revert b
  decide

/-! ## The fetch -/

/-- The fetch succeeds where both bytes exist (R44). -/
theorem fetch_of_le (s : State) (h : s.pc.toNat ≤ 4094) : fetch s = .ok (opcodeAtPc s) := by
  simp [fetch, readByte, show s.pc.toNat < 4096 by omega, show s.pc.toNat + 1 < 4096 by omega, opcodeAtPc]

/-- The fetch fails at the first byte out of range (R44, R49). -/
theorem fetch_of_gt (s : State) (h : 4094 < s.pc.toNat) : fetch s = .error (firstOutOfRange s.pc.toNat) := by
  by_cases h' : s.pc.toNat < 4096
  · simp [fetch, readByte, firstOutOfRange, show s.pc.toNat = 4095 by omega]
  · simp [fetch, readByte, firstOutOfRange, h', show 4095 < s.pc.toNat by omega]

/-- The fetch reads `PC` and the memory and nothing else. -/
theorem fetch_cycleStart (s : State) : fetch (cycleStart s) = fetch s := by
  simp [fetch, cycleStart]

/-! ## A cycle that executes an instruction -/

/-- A step that is a cycle, as the outcome of `exec` (R133, R136). -/
theorem step_of_executes (s : State) (i : Instr) (h : executes s i) :
    step s = match exec i (cycleStart s) with
      | .next t => .next (refreshTone t)
      | .fault f => .fault f
      | .refused r => .refused r := by
  obtain ⟨⟨h1, h2, h3⟩, h4, h5⟩ := h
  have hf : fetch s.takeGrant.closeLoad = .ok (opcodeAtPc s) := (fetch_cycleStart s).trans (fetch_of_le s h4)
  rcases hx : exec i s.takeGrant.closeLoad with u | f | r <;>
    simp only [step, machineStep, h1, makeMove, instrIteration, State.takeGrant_fault, State.takeGrant_wait, h2, h3,
      cycle, hf, opcodeAtPc, h5, cycleStart, hx]

/-- What a poll of the keys leaves unchanged: all but one register, the wait state and `PC` (R137, R138). -/
theorem waitPoll_frame (r : Nibble) (s : State) :
    (waitPoll r s).i = s.i ∧ (waitPoll r s).mem = s.mem ∧ (waitPoll r s).sp = s.sp ∧
    (waitPoll r s).stack = s.stack ∧ (waitPoll r s).dt = s.dt ∧ (waitPoll r s).st = s.st ∧
    (waitPoll r s).disp = s.disp ∧ (waitPoll r s).dirty = s.dirty ∧ (waitPoll r s).key = s.key ∧
    (waitPoll r s).fault = s.fault ∧ (waitPoll r s).tone = s.tone ∧ (waitPoll r s).loadOpen = s.loadOpen := by
  unfold waitPoll
  cases keyPick s.key <;> simp

/-! ## Every way a step can answer a next state -/

/-- The seven kinds of move, each with its condition and its next state (R132, R140, R146 to R149, R193). -/
theorem step_next_cases (s t : State) (h : step s = .next t) :
    (∃ i u, executes s i ∧ exec i (cycleStart s) = .next u ∧ t = refreshTone u) ∨
    (∃ r, nextMove s = .instrIteration ∧ s.fault = none ∧ s.wait = .waitingForKey r ∧
      t = waitPoll r (cycleStart s)) ∨
    (nextMove s = .timerTick ∧ s.fault = none ∧ t = signalRedraw (countTimers (cycleStart s))) ∨
    (∃ k, nextMove s = .setKey k ∧ t = hostSetKey k s.takeGrant) ∨
    (∃ k, nextMove s = .clearKey k ∧ t = hostClearKey k s.takeGrant) ∨
    (nextMove s = .readDisplay ∧ t = hostReadDisplay s.takeGrant) ∨
    (nextMove s = .clearDirty ∧ t = hostClearDirty s.takeGrant) ∨
    (∃ bytes addr, nextMove s = .loadRom bytes addr ∧ s.loadOpen = true ∧ s.fault = none ∧
      addr + bytes.length ≤ 4096 ∧
      t = ((s.takeGrant.setMem (copyBytes s.mem addr bytes)).setPc (BitVec.ofNat 16 addr)).closeLoad) := by
  rcases hm : nextMove s with _ | _ | k | k | _ | _ | ⟨bytes, addr⟩
  · rcases hf : s.fault with _ | f
    · rcases hw : s.wait with _ | r
      · by_cases hp : s.pc.toNat ≤ 4094
        · have he : executes s (decode (opcodeAtPc s)) := ⟨⟨hm, hf, hw⟩, hp, rfl⟩
          rw [step_of_executes s _ he] at h
          rcases hx : exec (decode (opcodeAtPc s)) (cycleStart s) with u | f | r
          · rw [hx] at h
            exact .inl ⟨_, u, he, hx, (Host.Outcome.next.inj h).symm⟩
          all_goals rw [hx] at h; cases h
        · have hc : fetch s.takeGrant.closeLoad = .error (firstOutOfRange s.pc.toNat) :=
            (fetch_cycleStart s).trans (fetch_of_gt s (by omega))
          simp [step, machineStep, hm, makeMove, instrIteration, hf, hw, cycle, hc, raiseFault] at h
      · simp only [step, machineStep, hm, makeMove, instrIteration, State.takeGrant_fault, State.takeGrant_wait, hf,
          hw] at h
        exact .inr (.inl ⟨r, rfl, rfl, rfl, (Host.Outcome.next.inj h).symm⟩)
    · simp [step, machineStep, hm, makeMove, instrIteration, hf] at h
  · rcases hf : s.fault with _ | f
    · simp only [step, machineStep, hm, makeMove, timerTick, State.takeGrant_fault, hf] at h
      exact .inr (.inr (.inl ⟨rfl, rfl, (Host.Outcome.next.inj h).symm⟩))
    · simp [step, machineStep, hm, makeMove, timerTick, hf] at h
  · simp only [step, machineStep, hm, makeMove] at h
    exact .inr (.inr (.inr (.inl ⟨k, rfl, (Host.Outcome.next.inj h).symm⟩)))
  · simp only [step, machineStep, hm, makeMove] at h
    exact .inr (.inr (.inr (.inr (.inl ⟨k, rfl, (Host.Outcome.next.inj h).symm⟩))))
  · simp only [step, machineStep, hm, makeMove] at h
    exact .inr (.inr (.inr (.inr (.inr (.inl ⟨rfl, (Host.Outcome.next.inj h).symm⟩)))))
  · simp only [step, machineStep, hm, makeMove] at h
    exact .inr (.inr (.inr (.inr (.inr (.inr (.inl ⟨rfl, (Host.Outcome.next.inj h).symm⟩))))))
  · simp only [step, machineStep, hm, makeMove, loadRom, State.takeGrant_loadOpen, State.takeGrant_fault,
      State.takeGrant_mem] at h
    split at h
    · rename_i ho
      split at h
      · simp [raiseFault] at h
      · rename_i hl
        have ho' : s.loadOpen = true ∧ s.fault = none := by simpa using ho
        exact .inr (.inr (.inr (.inr (.inr (.inr (.inr ⟨bytes, addr, rfl, ho'.1, ho'.2,
          by simp only [Config.memSize] at hl; omega, (Host.Outcome.next.inj h).symm⟩))))))
    · cases h

/-! ## A host move and a load, as steps -/

/-- A tick of a core that has not faulted (R140). -/
theorem step_of_timerTick (s : State) (h : nextMove s = .timerTick) (hf : s.fault = none) :
    step s = .next (signalRedraw (countTimers (cycleStart s))) := by
  simp only [step, machineStep, h, makeMove, timerTick, State.takeGrant_fault, hf]
  rfl

/-- A poll (R137, R138). -/
theorem step_of_poll (s : State) (r : Nibble) (h : nextMove s = .instrIteration) (hf : s.fault = none)
    (hw : s.wait = .waitingForKey r) : step s = .next (waitPoll r (cycleStart s)) := by
  simp only [step, machineStep, h, makeMove, instrIteration, State.takeGrant_fault, State.takeGrant_wait, hf, hw]
  rfl

end Sys2Proof.Machine
end

