-- ==== Sys2Proof/Laws/Exec.lean ====
section
/-! SUPPORT. What an instruction that answers a next state can change, one lemma for each piece of state: `exec_keeps`
for what no instruction touches, then the memory, the stack, `PC`, the wait, `I`, the timers and the screen. -/

namespace Sys2Proof.Machine

/-- To show something of every instruction that answers a next state it is enough to show it of the next states of
the six that can fault and, by their definitions, of all the others. -/
theorem exec_next_induct (P : Instr → State → State → Prop)
    (rest : ∀ i s t, exec i s = .next t → (∀ nnn, i ≠ .callSubroutine nnn) → i ≠ .returnFromSubroutine →
      (∀ x, i ≠ .storeBcdOfVxAtI x) → (∀ x, i ≠ .storeRegistersV0ThroughVxInMemory x) →
      (∀ x, i ≠ .readRegistersV0ThroughVxFromMemory x) → (∀ x y n, i ≠ .drawSprite x y n) → P i s t)
    (call : ∀ nnn s (h : s.sp.val < 16), P (.callSubroutine nnn) s
      ((s.setStack (s.stack.set s.sp.val (s.pc + 2#16) h) ⟨s.sp.val + 1, Nat.succ_lt_succ h⟩).setPc (addrWord nnn)))
    (ret : ∀ s (d : Fin 17) (a : Word) (k : Nibble), 0 < s.sp.val → d.val = s.sp.val - 1 → k.toNat = s.sp.val - 1 →
      a = s.stack[k.toNat]'k.isLt → P .returnFromSubroutine s ((s.setStack s.stack d).setPc a))
    (bcd : ∀ x s, s.i.toNat + 3 ≤ 4096 →
      P (.storeBcdOfVxAtI x) s (s.setMem (copyBytes s.mem s.i.toNat (bcdDigits (s.reg x)))).nextPc)
    (store : ∀ x s, s.i.toNat + (x.toNat + 1) ≤ 4096 →
      P (.storeRegistersV0ThroughVxInMemory x) s (s.setMem (copyBytes s.mem s.i.toNat (s.regBlock x))).nextPc)
    (load : ∀ x s bs, P (.readRegistersV0ThroughVxFromMemory x) s (s.setV (loadRegs s.v 0 bs)).nextPc)
    (draw : ∀ x y n s (p : Plot), P (.drawSprite x y n) s
      (((s.setDisp p.disp).setDirty (s.dirty || p.plotted)).setVF (flagByte p.collision)).nextPc) :
    ∀ i s t, exec i s = .next t → P i s t := by
  intro i s t h
  cases i
  case callSubroutine nnn =>
    by_cases h' : s.sp.val < 16
    · simp only [exec, execCallSubroutine, push_of_lt _ _ h'] at h
      cases h
      exact call ..
    · simp [exec, execCallSubroutine, push_of_full _ _ (show s.sp.val = 16 by omega), raiseFault] at h
  case returnFromSubroutine =>
    by_cases h' : 0 < s.sp.val
    · simp only [exec, execReturnFromSubroutine, pop_of_pos _ h'] at h
      cases h
      have hk : (BitVec.ofNat 4 (s.sp.val - 1)).toNat = s.sp.val - 1 := by
        simp [Nat.mod_eq_of_lt (show s.sp.val - 1 < 16 by omega)]
      exact ret s _ _ _ h' rfl hk (by simp only [hk])
    · simp [exec, execReturnFromSubroutine, pop_of_empty _ (show s.sp.val = 0 by omega), raiseFault] at h
  case storeBcdOfVxAtI x =>
    simp only [exec, execStoreBcdOfVxAtI, writeBytes_eq, bcdDigits_length, effectiveAddress, Nat.add_zero] at h
    have hne : bcdDigits (s.reg x) ≠ [] := List.cons_ne_nil _ _
    by_cases c : s.i.toNat + 3 ≤ 4096
    · simp only [c, or_true, if_true] at h
      cases h
      exact bcd x s c
    · simp only [hne, c, or_false, if_false] at h
      cases h
  case storeRegistersV0ThroughVxInMemory x =>
    simp only [exec, execStoreRegistersV0ThroughVxInMemory, writeBytes_eq, regBlock_length, effectiveAddress,
      Nat.add_zero] at h
    by_cases c : s.i.toNat + (x.toNat + 1) ≤ 4096
    · rw [if_pos (Or.inr c)] at h
      cases h
      exact store x s c
    · have hne : s.regBlock x ≠ [] := fun e => by simpa [e] using regBlock_length s x
      rw [if_neg (not_or.2 ⟨hne, c⟩)] at h
      cases h
  case readRegistersV0ThroughVxFromMemory x =>
    simp only [exec, execReadRegistersV0ThroughVxFromMemory] at h
    split at h
    · cases h
    · cases h
      exact load ..
  case drawSprite x y n =>
    simp only [exec, execDrawSprite] at h
    split at h
    · cases h
    · cases h
      exact draw ..
  all_goals exact rest _ _ _ h nofun nofun nofun nofun nofun nofun

/-- What no instruction touches: the keys (R23), the tone latch (R28), the fault latch (R27) and the books. -/
theorem exec_keeps (i : Instr) (s t : State) (h : exec i s = .next t) :
    t.key = s.key ∧ t.tone = s.tone ∧ t.fault = s.fault ∧ t.loadOpen = s.loadOpen ∧ t.agenda = s.agenda ∧
    t.grants = s.grants := by
  revert i s t
  apply exec_next_induct
  · intro i s t h h1 h2 h3 h4 h5 h6
    cases i <;> first | (cases h; simp) | (exfalso; simp at *)
  all_goals intros; simp

/-- The memory changes by the two storing instructions alone, in range (R109, R110). -/
theorem exec_mem (i : Instr) (s t : State) (h : exec i s = .next t) :
    t.mem = s.mem ∨
    (∃ x, i = .storeBcdOfVxAtI x ∧ s.i.toNat + 3 ≤ 4096 ∧
      t.mem = copyBytes s.mem s.i.toNat (bcdDigits (s.reg x))) ∨
    (∃ x, i = .storeRegistersV0ThroughVxInMemory x ∧ s.i.toNat + (x.toNat + 1) ≤ 4096 ∧
      t.mem = copyBytes s.mem s.i.toNat (s.regBlock x)) := by
  revert i s t
  apply exec_next_induct
  · intro i s t h h1 h2 h3 h4 h5 h6
    cases i <;> first | (cases h; simp) | (exfalso; simp at *)
  case bcd => exact fun x s h => .inr (.inl ⟨x, rfl, h, rfl⟩)
  case store => exact fun x s h => .inr (.inr ⟨x, rfl, h, rfl⟩)
  all_goals intros; simp

/-- The stack changes by a call and a return alone (R80, R82). -/
theorem exec_stack (i : Instr) (s t : State) (h : exec i s = .next t) :
    (t.stack = s.stack ∧ t.sp = s.sp) ∨
    (∃ nnn, i = .callSubroutine nnn ∧ ∃ h : s.sp.val < 16, t.stack = s.stack.set s.sp.val (s.pc + 2#16) h) ∨
    (i = .returnFromSubroutine ∧ t.stack = s.stack) := by
  revert i s t
  apply exec_next_induct
  · intro i s t h h1 h2 h3 h4 h5 h6
    cases i <;> first | (cases h; simp) | (exfalso; simp at *)
  case call => exact fun nnn s h => .inr (.inl ⟨nnn, rfl, h, rfl⟩)
  all_goals intros; simp

/-- Where `PC` can go (R88, R89): it stays (a wait is entered), advances, skips, jumps, or takes a stack entry. -/
theorem exec_pc (i : Instr) (s t : State) (h : exec i s = .next t) :
    t.pc = s.pc ∨ t.pc = s.pc + 2#16 ∨ t.pc = s.pc + 4#16 ∨ t.pc.toNat ≤ 4095 + 255 ∨
    ∃ k : Nibble, t.pc = s.stack[k.toNat]'k.isLt := by
  revert i s t
  apply exec_next_induct
  case call =>
    intro nnn s h
    have := nnn.isLt
    exact .inr (.inr (.inr (.inl (by simp; omega))))
  case ret => exact fun s d a k _ _ _ ha => .inr (.inr (.inr (.inr ⟨k, ha⟩)))
  case rest =>
    intro i s t h h1 h2 h3 h4 h5 h6
    cases i
    case jumpToAddress nnn =>
      cases h
      have := nnn.isLt
      exact .inr (.inr (.inr (.inl (by simp; omega))))
    case jumpToAddressPlusV0 nnn =>
      cases h
      have := nnn.isLt
      have := (s.reg 0#4).isLt
      exact .inr (.inr (.inr (.inl (by simp; omega))))
    all_goals try (exfalso; simp at *; done)
    all_goals cases h; simp; try (split <;> simp_all)
  all_goals intros; simp

/-- The wait is entered by one instruction, which holds `PC` (R122). -/
theorem exec_wait (i : Instr) (s t : State) (h : exec i s = .next t) :
    t.wait = s.wait ∨ (∃ x, i = .waitForKeyPressAndStoreInVx x ∧ t.wait = .waitingForKey x ∧ t.pc = s.pc) := by
  revert i s t
  apply exec_next_induct
  · intro i s t h h1 h2 h3 h4 h5 h6
    cases i <;> first | (cases h; simp) | (exfalso; simp at *)
  all_goals intros; simp

/-- `I` changes by three instructions alone (R105, R106, R107). -/
theorem exec_i (i : Instr) (s t : State) (h : exec i s = .next t) :
    t.i = s.i ∨ (∃ nnn, i = .setIToAddress nnn) ∨ (∃ x, i = .addVxToI x) ∨
    ∃ x, i = .setIToSpriteAddressForDigitVx x := by
  revert i s t
  apply exec_next_induct
  · intro i s t h h1 h2 h3 h4 h5 h6
    cases i <;> first | (cases h; simp) | (exfalso; simp at *)
  all_goals intros; simp

/-- Each timer is written by one instruction (R124, R125). -/
theorem exec_timers (i : Instr) (s t : State) (h : exec i s = .next t) :
    (t.dt = s.dt ∨ ∃ x, i = .setDelayTimerToVx x ∧ t.dt = s.reg x) ∧
    (t.st = s.st ∨ ∃ x, i = .setSoundTimerToVx x ∧ t.st = s.reg x) := by
  revert i s t
  apply exec_next_induct
  · intro i s t h h1 h2 h3 h4 h5 h6
    cases i <;> first | (cases h; simp) | (exfalso; simp at *)
  all_goals intros; simp

/-- The screen changes by two instructions alone, and no instruction clears `dirty` (R115, R116). -/
theorem exec_screen (i : Instr) (s t : State) (h : exec i s = .next t) :
    (t.disp = s.disp ∧ t.dirty = s.dirty) ∨
    ((i = .clearDisplay ∨ ∃ x y n, i = .drawSprite x y n) ∧ (s.dirty = true → t.dirty = true)) := by
  revert i s t
  apply exec_next_induct
  · intro i s t h h1 h2 h3 h4 h5 h6
    cases i <;> first | (cases h; simp) | (exfalso; simp at *)
  all_goals intros; simp +contextual

end Sys2Proof.Machine
end

