-- ==== Sys2Proof/Laws/PerInstr.lean ====
section
/-! SUPPORT. One family of statements made per instruction: the encoding of every instruction selects its own row of
the opcode map (`spec/30_encoding.md` R66), and a well-formed `Invalid` selects none. -/

namespace Sys2Proof.Laws.OpcodeRow

/-- The encoding selects the row whose number is the instruction's tag; a well-formed `Invalid` selects no row. -/
def Statement (i : Instr) : Prop :=
  i.wellFormed = true →
    match opcodeRows[instrTag i]? with
    | some r => rowSelects (encode i) r = true
    | none => isConcreteOpcode (encode i) = false

/-! ## Masking an encoding, shape by shape -/

theorem nibble_and_ones (f : Nibble) : f &&& 15#4 = f := BitVec.and_allOnes

theorem byte_and_ones (b : Byte) : b &&& 255#8 = b := BitVec.and_allOnes

theorem mask_addr (f : Nibble) (nnn : Addr) : ((f ++ nnn : Word) &&& 0xF000#16) = f ++ 0#12 := by
  rw [show (0xF000#16 : Word) = 0xF#4 ++ 0#12 from rfl, BitVec.and_append]
  simp [nibble_and_ones]

theorem mask_byte (f x : Nibble) (kk : Byte) : ((f ++ x ++ kk : Word) &&& 0xF000#16) = f ++ 0#4 ++ 0#8 := by
  rw [show (0xF000#16 : Word) = 0xF#4 ++ 0#4 ++ 0#8 from rfl, BitVec.and_append, BitVec.and_append]
  simp [nibble_and_ones]

theorem mask_draw (f x y n : Nibble) : ((f ++ x ++ y ++ n : Word) &&& 0xF000#16) = f ++ 0#4 ++ 0#4 ++ 0#4 := by
  rw [show (0xF000#16 : Word) = 0xF#4 ++ 0#4 ++ 0#4 ++ 0#4 from rfl, BitVec.and_append, BitVec.and_append,
    BitVec.and_append]
  simp [nibble_and_ones]

theorem mask_regs (f x y n : Nibble) : ((f ++ x ++ y ++ n : Word) &&& 0xF00F#16) = f ++ 0#4 ++ 0#4 ++ n := by
  rw [show (0xF00F#16 : Word) = 0xF#4 ++ 0#4 ++ 0#4 ++ 0xF#4 from rfl, BitVec.and_append, BitVec.and_append,
    BitVec.and_append]
  simp [nibble_and_ones]

theorem mask_low (f x : Nibble) (kk : Byte) : ((f ++ x ++ kk : Word) &&& 0xF0FF#16) = f ++ 0#4 ++ kk := by
  rw [show (0xF0FF#16 : Word) = 0xF#4 ++ 0#4 ++ 0xFF#8 from rfl, BitVec.and_append, BitVec.and_append]
  simp [nibble_and_ones, byte_and_ones]

/-- A row of the table at a tag, from the masked encoding. -/
theorem of_row {i : Instr} {r : OpcodeRow} (hr : opcodeRows[instrTag i]? = some r)
    (h : (encode i &&& r.mask) = r.pattern) : Statement i := by
  intro _
  rw [hr]
  simpa [rowSelects] using h

/-! ## One lemma for each constructor -/

theorem clearDisplay : Statement (.clearDisplay) :=
  of_row rfl (rfl)

theorem returnFromSubroutine : Statement (.returnFromSubroutine) :=
  of_row rfl (rfl)

theorem jumpToAddress (nnn : Addr) : Statement (.jumpToAddress nnn) :=
  of_row rfl ((mask_addr _ nnn).trans rfl)

theorem callSubroutine (nnn : Addr) : Statement (.callSubroutine nnn) :=
  of_row rfl ((mask_addr _ nnn).trans rfl)

theorem skipIfVxEqualsByte (x : Nibble) (kk : Byte) : Statement (.skipIfVxEqualsByte x kk) :=
  of_row rfl ((mask_byte _ x kk).trans rfl)

theorem skipIfVxNotEqualsByte (x : Nibble) (kk : Byte) : Statement (.skipIfVxNotEqualsByte x kk) :=
  of_row rfl ((mask_byte _ x kk).trans rfl)

theorem skipIfVxEqualsVy (x y : Nibble) : Statement (.skipIfVxEqualsVy x y) :=
  of_row rfl ((mask_regs _ x y _).trans rfl)

theorem setVxToByte (x : Nibble) (kk : Byte) : Statement (.setVxToByte x kk) :=
  of_row rfl ((mask_byte _ x kk).trans rfl)

theorem addByteToVx (x : Nibble) (kk : Byte) : Statement (.addByteToVx x kk) :=
  of_row rfl ((mask_byte _ x kk).trans rfl)

theorem setVxToVy (x y : Nibble) : Statement (.setVxToVy x y) :=
  of_row rfl ((mask_regs _ x y _).trans rfl)

theorem setVxToVxOrVy (x y : Nibble) : Statement (.setVxToVxOrVy x y) :=
  of_row rfl ((mask_regs _ x y _).trans rfl)

theorem setVxToVxAndVy (x y : Nibble) : Statement (.setVxToVxAndVy x y) :=
  of_row rfl ((mask_regs _ x y _).trans rfl)

theorem setVxToVxXorVy (x y : Nibble) : Statement (.setVxToVxXorVy x y) :=
  of_row rfl ((mask_regs _ x y _).trans rfl)

theorem addVyToVxWithCarry (x y : Nibble) : Statement (.addVyToVxWithCarry x y) :=
  of_row rfl ((mask_regs _ x y _).trans rfl)

theorem subtractVyFromVxWithBorrow (x y : Nibble) : Statement (.subtractVyFromVxWithBorrow x y) :=
  of_row rfl ((mask_regs _ x y _).trans rfl)

theorem shiftVxRightByOne (x y : Nibble) : Statement (.shiftVxRightByOne x y) :=
  of_row rfl ((mask_regs _ x y _).trans rfl)

theorem setVxToVyMinusVx (x y : Nibble) : Statement (.setVxToVyMinusVx x y) :=
  of_row rfl ((mask_regs _ x y _).trans rfl)

theorem shiftVxLeftByOne (x y : Nibble) : Statement (.shiftVxLeftByOne x y) :=
  of_row rfl ((mask_regs _ x y _).trans rfl)

theorem skipIfVxNotEqualsVy (x y : Nibble) : Statement (.skipIfVxNotEqualsVy x y) :=
  of_row rfl ((mask_regs _ x y _).trans rfl)

theorem setIToAddress (nnn : Addr) : Statement (.setIToAddress nnn) :=
  of_row rfl ((mask_addr _ nnn).trans rfl)

theorem jumpToAddressPlusV0 (nnn : Addr) : Statement (.jumpToAddressPlusV0 nnn) :=
  of_row rfl ((mask_addr _ nnn).trans rfl)

theorem setVxToRandomAndByte (x : Nibble) (kk : Byte) : Statement (.setVxToRandomAndByte x kk) :=
  of_row rfl ((mask_byte _ x kk).trans rfl)

theorem drawSprite (x y n : Nibble) : Statement (.drawSprite x y n) :=
  of_row rfl ((mask_draw _ x y n).trans rfl)

theorem skipIfKeyVxPressed (x : Nibble) : Statement (.skipIfKeyVxPressed x) :=
  of_row rfl ((mask_low _ x _).trans rfl)

theorem skipIfKeyVxNotPressed (x : Nibble) : Statement (.skipIfKeyVxNotPressed x) :=
  of_row rfl ((mask_low _ x _).trans rfl)

theorem setVxToDelayTimer (x : Nibble) : Statement (.setVxToDelayTimer x) :=
  of_row rfl ((mask_low _ x _).trans rfl)

theorem waitForKeyPressAndStoreInVx (x : Nibble) : Statement (.waitForKeyPressAndStoreInVx x) :=
  of_row rfl ((mask_low _ x _).trans rfl)

theorem setDelayTimerToVx (x : Nibble) : Statement (.setDelayTimerToVx x) :=
  of_row rfl ((mask_low _ x _).trans rfl)

theorem setSoundTimerToVx (x : Nibble) : Statement (.setSoundTimerToVx x) :=
  of_row rfl ((mask_low _ x _).trans rfl)

theorem addVxToI (x : Nibble) : Statement (.addVxToI x) :=
  of_row rfl ((mask_low _ x _).trans rfl)

theorem setIToSpriteAddressForDigitVx (x : Nibble) : Statement (.setIToSpriteAddressForDigitVx x) :=
  of_row rfl ((mask_low _ x _).trans rfl)

theorem storeBcdOfVxAtI (x : Nibble) : Statement (.storeBcdOfVxAtI x) :=
  of_row rfl ((mask_low _ x _).trans rfl)

theorem storeRegistersV0ThroughVxInMemory (x : Nibble) : Statement (.storeRegistersV0ThroughVxInMemory x) :=
  of_row rfl ((mask_low _ x _).trans rfl)

theorem readRegistersV0ThroughVxFromMemory (x : Nibble) : Statement (.readRegistersV0ThroughVxFromMemory x) :=
  of_row rfl ((mask_low _ x _).trans rfl)

theorem invalid (op : Word) : Statement (.invalid op) := by
  intro h
  simpa [instrTag, opcodeRows, opcodeRowsLow, opcodeRowsHigh, encode, Instr.wellFormed] using h

end Sys2Proof.Laws.OpcodeRow
end

