-- ==== Sys2Proof/Tests/Slice0.lean ====
section
/-! SUPPORT. Tests: the check of `WellFormed`, the words of `spec/95_test_vectors.md` V1 for every constructor, single
steps of V2 to V7, and for each statement with hypotheses a state and operands that meet them, clause by clause at the
values where clauses meet. Every expected value is the vector's. -/

namespace Sys2Proof.Tests

open Sys2Proof.Machine

/-! ## WellFormed -/

/-- R73: `Invalid(op)` with `op` in a concrete row is junk of the type. -/
theorem test_wellFormed_refuses_junk : Instr.wellFormed (.invalid 0x00E0#16) = false := by decide

theorem test_wellFormed_refuses_junk_of_family_f : Instr.wellFormed (.invalid 0xF365#16) = false := by decide

theorem test_wellFormed_admits_invalid : Instr.wellFormed (.invalid 0x5AB1#16) = true := by decide

/-! ## Decoding (V1), every constructor -/

theorem test_decode_flow : decode 0x00EE#16 = .returnFromSubroutine ∧ decode 0x1ABC#16 = .jumpToAddress 0xABC#12 ∧
    decode 0x2FFF#16 = .callSubroutine 0xFFF#12 ∧ decode 0xB123#16 = .jumpToAddressPlusV0 0x123#12 ∧
    decode 0x3A7F#16 = .skipIfVxEqualsByte 10#4 0x7F#8 ∧ decode 0x4001#16 = .skipIfVxNotEqualsByte 0#4 0x01#8 ∧
    decode 0x5AB0#16 = .skipIfVxEqualsVy 10#4 11#4 ∧ decode 0x9AB0#16 = .skipIfVxNotEqualsVy 10#4 11#4 := by decide

theorem test_decode_load_arith : decode 0x6F01#16 = .setVxToByte 15#4 0x01#8 ∧
    decode 0x7CFF#16 = .addByteToVx 12#4 0xFF#8 ∧ decode 0x8AB0#16 = .setVxToVy 10#4 11#4 ∧
    decode 0x8AB1#16 = .setVxToVxOrVy 10#4 11#4 ∧ decode 0x8AB2#16 = .setVxToVxAndVy 10#4 11#4 ∧
    decode 0x8AB3#16 = .setVxToVxXorVy 10#4 11#4 ∧ decode 0x8AB4#16 = .addVyToVxWithCarry 10#4 11#4 ∧
    decode 0x8AB5#16 = .subtractVyFromVxWithBorrow 10#4 11#4 ∧ decode 0x8AB6#16 = .shiftVxRightByOne 10#4 11#4 ∧
    decode 0x8AB7#16 = .setVxToVyMinusVx 10#4 11#4 ∧ decode 0x8ABE#16 = .shiftVxLeftByOne 10#4 11#4 := by decide

theorem test_decode_index_memory : decode 0xA123#16 = .setIToAddress 0x123#12 ∧ decode 0xF31E#16 = .addVxToI 3#4 ∧
    decode 0xF329#16 = .setIToSpriteAddressForDigitVx 3#4 ∧ decode 0xF333#16 = .storeBcdOfVxAtI 3#4 ∧
    decode 0xF355#16 = .storeRegistersV0ThroughVxInMemory 3#4 ∧
    decode 0xF365#16 = .readRegistersV0ThroughVxFromMemory 3#4 := by decide

theorem test_decode_display_random : decode 0x00E0#16 = .clearDisplay ∧
    decode 0xC30F#16 = .setVxToRandomAndByte 3#4 0x0F#8 ∧ decode 0xD125#16 = .drawSprite 1#4 2#4 5#4 ∧
    decode 0xD120#16 = .drawSprite 1#4 2#4 0#4 := by decide

theorem test_decode_input_timers : decode 0xE39E#16 = .skipIfKeyVxPressed 3#4 ∧
    decode 0xE3A1#16 = .skipIfKeyVxNotPressed 3#4 ∧ decode 0xF307#16 = .setVxToDelayTimer 3#4 ∧
    decode 0xF30A#16 = .waitForKeyPressAndStoreInVx 3#4 ∧ decode 0xF315#16 = .setDelayTimerToVx 3#4 ∧
    decode 0xF318#16 = .setSoundTimerToVx 3#4 := by decide

/-- The `Invalid` rows of V1. -/
theorem test_decode_invalid : ([0x0000, 0x00E1, 0x01E0, 0x0FEE, 0x0123, 0x5AB1, 0x8AB8, 0x8ABD, 0x8ABF, 0x9ABF, 0xE39F,
    0xE300, 0xF300, 0xF375, 0xF385, 0xF3FF, 0xFFFF] : List Word).all (fun op => decode op == .invalid op) = true := by
  decide

/-- Big-endian bytes (R43), and the bundle's operand slices (R72). -/
theorem test_decode_bytes : decodeTableWord 16 0x8126 = some (.shiftVxRightByOne 1#4 2#4) ∧
    decodeBytes [0xA3#8, 0x00#8, 0x12#8] = .ok (.setIToAddress 0x300#12, [0x12#8]) ∧
    decodeBytes [0xA3#8] = .error .truncated := ⟨by decide, rfl, rfl⟩

theorem test_decodeBundle : decodeBundle 0xD125#16 = ⟨22#6, 1#4, 2#4, 5#4, 0x25#8, 0x125#12, 0xD125#16⟩ := by decide

/-! ## Helpers -/

/-- Reset with the opcode at 0x200, an iteration granted. -/
def start (op : Nat) : State := State.reset.withFetchWord 16 op

/-- Reset with the moves granted. -/
def granted (moves : List Move) : State := { State.reset with agenda := moves }

/-- One field of the state after a step that answers a next state. -/
def after {α : Type} (f : State → α) (s : State) : Option α :=
  match step s with
  | .next t => some (f t)
  | .fault _ => none
  | .refused _ => none

/-- The fault of a step that faults. -/
def faultOf (s : State) : Option Fault :=
  match step s with
  | .next _ => none
  | .fault f => some f
  | .refused _ => none

/-- Write one byte of memory. -/
def poke (a : Nat) (b : Byte) (s : State) : State := s.setMem (memWrite s.mem a b)

/-- Set the depth of the stack. -/
def depth (d : Fin 17) (s : State) : State := s.setStack s.stack d

/-! ## Control transfer (V2) -/

theorem test_jump : after (·.pc) (start 0x1234) = some 0x234#16 := by decide

theorem test_call : after (fun t => (t.stack[15], t.sp, t.pc)) (depth 15 (start 0x2300)) =
    some (0x0202#16, 16, 0x300#16) := by decide

theorem test_call_full : faultOf (depth 16 (start 0x2300)) = some (.stackOverflow 0x2300#16 0x200#16) := by decide

theorem test_return : after (fun t => (t.sp, t.pc))
    ((start 0x00EE).setStack (State.reset.stack.set 0 0x0ABC#16) 1) = some (0, 0xABC#16) := by decide

theorem test_return_empty : faultOf (start 0x00EE) = some (.stackUnderflow 0x00EE#16 0x200#16) := by decide

theorem test_jumpPlusV0 : after (·.pc) ((start 0xBFFF).setReg 0#4 0xFF#8) = some 0x10FE#16 := by decide

theorem test_skipEqualsByte : after (·.pc) ((start 0x3A05).setReg 10#4 5#8) = some 0x204#16 ∧
    after (·.pc) ((start 0x3A05).setReg 10#4 6#8) = some 0x202#16 := by decide

theorem test_skipNotEqualsByte : after (·.pc) ((start 0x4A05).setReg 10#4 5#8) = some 0x202#16 ∧
    after (·.pc) ((start 0x4A05).setReg 10#4 6#8) = some 0x204#16 := by decide

theorem test_skipEqualsVy : after (·.pc) (((start 0x5120).setReg 1#4 7#8).setReg 2#4 8#8) = some 0x202#16 ∧
    after (·.pc) ((start 0x5110).setReg 1#4 7#8) = some 0x204#16 := by decide

theorem test_skipNotEqualsVy : after (·.pc) (((start 0x9120).setReg 1#4 7#8).setReg 2#4 8#8) = some 0x204#16 ∧
    after (·.pc) ((start 0x9110).setReg 1#4 7#8) = some 0x202#16 := by decide

/-- The last legal fetch is at 4094; the next skip leaves memory, and the fetch there faults. -/
theorem test_fetch_edges : after (·.pc) ((State.reset.setPc 4094#16).withFetchWord 16 0x3000) = some 0x1002#16 ∧
    faultOf ((granted [.instrIteration]).setPc 4095#16) = some (.memOutOfRange 4096 none 4095#16) ∧
    faultOf ((granted [.instrIteration]).setPc 0x1002#16) = some (.memOutOfRange 0x1002 none 0x1002#16) := by decide

/-! ## Load and arithmetic (V3) -/

theorem test_setVxToByte : after (·.reg 15#4) (start 0x6FAB) = some 0xAB#8 := by decide

theorem test_addByteToVx : after (fun t => (t.reg 1#4, t.reg 15#4)) ((start 0x7101).setReg 1#4 0xFF#8) =
    some (0#8, 0#8) := by decide

theorem test_setVxToVy : after (·.reg 1#4) ((start 0x8120).setReg 2#4 0x7E#8) = some 0x7E#8 := by decide

theorem test_or_and_xor :
    after (·.reg 1#4) (((start 0x8121).setReg 1#4 0xF0#8).setReg 2#4 0x0F#8) = some 0xFF#8 ∧
    after (·.reg 1#4) (((start 0x8122).setReg 1#4 0xF3#8).setReg 2#4 0x3F#8) = some 0x33#8 ∧
    after (·.reg 1#4) (((start 0x8123).setReg 1#4 0xFF#8).setReg 2#4 0x0F#8) = some 0xF0#8 := by decide

theorem test_add : after (fun t => (t.reg 1#4, t.reg 15#4)) (((start 0x8124).setReg 1#4 0xC8#8).setReg 2#4 0x64#8) =
    some (0x2C#8, 1#8) := by decide

/-- The flag survives where `x = 15`. -/
theorem test_add_into_vf : after (·.reg 15#4) (((start 0x8F14).setReg 15#4 0xF0#8).setReg 1#4 0x20#8) = some 1#8 := by
  decide

theorem test_subtract : after (fun t => (t.reg 1#4, t.reg 15#4))
    (((start 0x8125).setReg 1#4 0x05#8).setReg 2#4 0x0A#8) = some (0xFB#8, 0#8) := by decide

theorem test_subtract_equal : after (fun t => (t.reg 1#4, t.reg 15#4))
    (((start 0x8125).setReg 1#4 7#8).setReg 2#4 7#8) = some (0#8, 1#8) := by decide

theorem test_subtract_reverse : after (fun t => (t.reg 1#4, t.reg 15#4))
    (((start 0x8127).setReg 1#4 0x05#8).setReg 2#4 0x0A#8) = some (0x05#8, 1#8) := by decide

/-- S4. -/
theorem test_shiftRight : after (fun t => (t.reg 1#4, t.reg 15#4, t.reg 2#4)) ((start 0x8126).setReg 2#4 0xB3#8) =
    some (0x59#8, 1#8, 0xB3#8) := by decide

/-- S4. -/
theorem test_shiftLeft : after (fun t => (t.reg 1#4, t.reg 15#4, t.reg 2#4)) ((start 0x812E).setReg 2#4 0xB3#8) =
    some (0x66#8, 1#8, 0xB3#8) := by decide

/-! ## Address register and memory (V4) -/

theorem test_setI : after (·.i) (start 0xAFFF) = some 0x0FFF#16 := by decide

theorem test_addVxToI : after (·.i) (((start 0xF01E).setI 0xFFFF#16).setReg 0#4 1#8) = some 0#16 ∧
    after (fun t => (t.i, t.reg 15#4)) (((start 0xF01E).setI 0x0FFF#16).setReg 0#4 1#8) = some (0x1000#16, 0#8) := by
  decide

theorem test_glyphAddress : after (·.i) ((start 0xF329).setReg 3#4 0x0A#8) = some 0x082#16 ∧
    after (·.i) ((start 0xF029).setReg 0#4 0x1F#8) = some 0x09B#16 := by decide

theorem test_bcd : after (fun t => (memRead t.mem 4093, memRead t.mem 4094, memRead t.mem 4095, t.pc))
    (((start 0xF033).setReg 0#4 255#8).setI 4093#16) = some (2#8, 5#8, 5#8, 0x202#16) := by decide

theorem test_bcd_fault : faultOf (((start 0xF033).setReg 0#4 255#8).setI 4094#16) =
    some (.memOutOfRange 4096 (some 0xF033#16) 0x200#16) := by decide

theorem test_blockStore : after (fun t => (memRead t.mem 0x400, memRead t.mem 0x402, memRead t.mem 0x403, t.i))
    ((((start 0xF255).setReg 0#4 1#8).setReg 2#4 3#8).setReg 3#4 9#8 |>.setI 0x400#16) =
    some (1#8, 3#8, 0#8, 0x400#16) := by decide

theorem test_blockStore_fault : faultOf ((start 0xFF55).setI 4081#16) =
    some (.memOutOfRange 4096 (some 0xFF55#16) 0x200#16) := by decide

theorem test_blockLoad : after (fun t => (t.reg 0#4, t.reg 1#4, t.reg 4#4, t.reg 5#4, t.i))
    (((start 0xF465).setReg 5#4 7#8).setI 0x050#16) = some (0xF0#8, 0x90#8, 0xF0#8, 7#8, 0x050#16) := by decide

theorem test_blockLoad_fault : faultOf ((start 0xF065).setI 4096#16) =
    some (.memOutOfRange 4096 (some 0xF065#16) 0x200#16) := by decide

/-! ## Display and random (V5) -/

theorem test_clearDisplay : after (fun t => (pixel t.disp 5 6, t.dirty))
    ((start 0x00E0).setDisp (setPixel blankDisplay 5 6 true)) = some (false, true) := by decide

theorem test_draw_wraps : after (fun t => (pixel t.disp 63 31, pixel t.disp 6 31, pixel t.disp 0 31, t.reg 15#4, t.dirty))
    (poke 0x300 0x81#8 ((((start 0xD011).setI 0x300#16).setReg 0#4 63#8).setReg 1#4 31#8)) =
    some (true, true, false, 0#8, true) := by decide

theorem test_draw_nothing : after (fun t => (t.reg 15#4, t.dirty))
    (((start 0xD010).setI 0x5000#16).setReg 15#4 1#8) = some (0#8, false) := by decide

theorem test_draw_collision : after (fun t => (pixel t.disp 0 0, t.reg 15#4))
    ((poke 0x300 0x80#8 ((start 0xD011).setI 0x300#16)).setDisp (setPixel blankDisplay 0 0 true)) =
    some (false, 1#8) := by decide

/-- `CXKK` with `kk = 0` gives 0 whatever the draw. -/
theorem test_random_zero : after (·.draws) (start 0xC100) = some 1 ∧
    ∃ t, step (start 0xC100) = .next t ∧ t.reg 1#4 = Config.draw8 0 &&& 0#8 := ⟨by decide, _, rfl, rfl⟩

/-! ## Keys and timers (V6) -/

theorem test_skipKeyPressed : after (·.pc) (((start 0xE09E).setReg 0#4 0x17#8).setKeyTo 7#4 true) = some 0x204#16 ∧
    after (·.pc) ((start 0xE59E).setReg 5#4 7#8) = some 0x202#16 := by decide

theorem test_skipKeyNotPressed : after (·.pc) (((start 0xE5A1).setReg 5#4 7#8).setKeyTo 7#4 true) = some 0x202#16 ∧
    after (·.pc) ((start 0xE5A1).setReg 5#4 7#8) = some 0x204#16 := by decide

theorem test_wait_enters : after (fun t => (t.wait, t.pc, t.reg 3#4)) ((start 0xF30A).setKeyTo 7#4 true) =
    some (.waitingForKey 3#4, 0x200#16, 0#8) := by decide

theorem test_wait_resolves : after (fun t => (t.reg 3#4, t.wait, t.pc))
    ((((granted [.instrIteration]).setWait (.waitingForKey 3#4)).setKeyTo 7#4 true).setKeyTo 2#4 true) =
    some (2#8, .running, 0x202#16) := by decide

theorem test_delayTimer : after (·.reg 2#4) ((start 0xF207).setDt 0x3C#8) = some 0x3C#8 ∧
    after (·.dt) ((start 0xF215).setReg 2#4 0x3C#8) = some 0x3C#8 := by decide

theorem test_soundTimer : after (fun t => (t.st, t.tone)) ((start 0xF218).setReg 2#4 5#8) = some (5#8, true) ∧
    after (fun t => (t.st, t.tone)) (((start 0xF218).setSt 9#8).setTone true) = some (0#8, false) := by decide

theorem test_tick : after (fun t => (t.dt, t.st, t.events)) ((granted [.timerTick]).setDt 5#8) =
    some (4#8, 0#8, []) ∧
    after (fun t => (t.st, t.events, t.dirty, t.tone))
      ((((granted [.timerTick]).setSt 1#8).setDirty true).setTone true) =
    some (0#8, [.redrawRequest], true, true) := by decide

theorem test_clearDirty : after (·.dirty) ((granted [.clearDirty]).setDirty true) = some false := by decide

/-! ## Invalid, faults and the load (V7) -/

theorem test_invalid : after (fun t => (t.events, t.pc)) (start 0x5121) = some ([.diag 0x5121#16], 0x202#16) := by decide

/-- A stopped core takes no tick. -/
theorem test_stopped : faultOf { granted [.timerTick] with fault := some (.stackUnderflow 0x00EE#16 0x200#16) } =
    some (.stackUnderflow 0x00EE#16 0x200#16) ∧
    (advance { granted [.timerTick] with fault := some (.stackUnderflow 0x00EE#16 0x200#16), dt := 5#8 }).dt = 5#8 := by
  decide

/-- The latch and the one `FaultDiag` of the step that faults. -/
theorem test_fault_latches : (advance (start 0x00EE)).fault = some (.stackUnderflow 0x00EE#16 0x200#16) ∧
    (advance (start 0x00EE)).events = [.faultDiag (.stackUnderflow 0x00EE#16 0x200#16)] := by decide

theorem test_loadRom : after (fun t => (memRead t.mem 0x200, memRead t.mem 0x201, t.pc, t.loadOpen))
    (granted [.loadRom [0x12#8, 0x34#8] 0x200]) = some (0x12#8, 0x34#8, 0x200#16, false) := by decide

/-! ## The hypotheses of the statements: encoding, cycle -/

theorem test_hyp_EncodeDecodeRoundTrip : Instr.wellFormed (.drawSprite 15#4 15#4 15#4) = true := by decide

theorem test_hyp_DecodeSelectsTheTableRow :
    (opcodeRows[0]? = some ⟨0x00E0, 0xFFFF⟩ ∧ rowSelects 0x00E0#16 ⟨0x00E0, 0xFFFF⟩ = true) ∧
    (opcodeRows[33]? = some ⟨0xF065, 0xF0FF⟩ ∧ rowSelects 0xFF65#16 ⟨0xF065, 0xF0FF⟩ = true) ∧
    isConcreteOpcode 0x01E0#16 = false := by decide

theorem test_hyp_FetchSucceedsExactlyInRange : ((start 0).setPc 4094#16).pc.toNat ≤ 4094 ∧
    (((start 0).setPc 4095#16).pc.toNat = 4095 ∧ runsCycle ((start 0).setPc 4095#16)) ∧
    (4096 ≤ ((start 0).setPc 4096#16).pc.toNat ∧ runsCycle ((start 0).setPc 4096#16)) := by decide

theorem test_hyp_StepRunsDecodedInstruction : executes (start 0xD125) (.drawSprite 1#4 2#4 5#4) ∧
    executes ((State.reset.setPc 4094#16).withFetchWord 16 0x00EE) .returnFromSubroutine := by decide

theorem test_hyp_PlacedWordRunsNext : State.reset.mem.wf ∧ (poke 0xFFF 1#8 (poke 0x050 0#8 State.reset)).mem.wf := by
  decide

/-! ## The hypotheses of the statements: control transfer, arithmetic -/

theorem test_hyp_CallPushesReturnAddress : (depth 15 State.reset).sp.val < 16 ∧ (depth 16 State.reset).sp.val = 16 := by
  decide

theorem test_hyp_ReturnPopsReturnAddress : 0 < (depth 1 State.reset).sp.val ∧ (depth 0 State.reset).sp.val = 0 := by
  decide

theorem test_hyp_CallThenReturnComesBack : (depth 15 State.reset).sp.val < 16 ∧
    (14#4 : Nibble).toNat < (depth 15 State.reset).sp.val := by decide

/-- The destination other than `VF`, and a register that is neither (`AddWithCarry`, `SubtractionsSetNotBorrow`,
`ShiftsPutBitIntoVF`); a register that is not the destination (`BitwiseOperations`, `LoadCopyAndAddByte`). -/
theorem test_hyp_ArithmeticDestinations : (14#4 : Nibble) ≠ 15#4 ∧ (13#4 : Nibble) ≠ 14#4 ∧ (13#4 : Nibble) ≠ 15#4 := by
  decide

/-! ## The hypotheses of the statements: memory -/

theorem test_hyp_BcdStore : State.reset.mem.wf ∧ (State.reset.setI 4093#16).i.toNat + 2 ≤ 4095 ∧
    (State.reset.setI 4094#16).i.toNat + 2 > 4095 ∧
    ¬(effectiveAddress (State.reset.setI 4090#16) 0 ≤ 4093 ∧ 4093 < effectiveAddress (State.reset.setI 4090#16) 0 + 3) :=
  by decide

theorem test_hyp_RegisterBlockStore : State.reset.mem.wf ∧ (State.reset.setI 4080#16).i.toNat + (15#4).toNat ≤ 4095 ∧
    (State.reset.setI 4081#16).i.toNat + (15#4).toNat > 4095 ∧ (15#4).toNat ≤ (15#4).toNat ∧
    ¬(effectiveAddress (State.reset.setI 4080#16) 0 ≤ 4079 ∧
      4079 ≤ effectiveAddress (State.reset.setI 4080#16) (15#4).toNat) := by decide

theorem test_hyp_RegisterBlockLoad : (State.reset.setI 4095#16).i.toNat + (0#4).toNat ≤ 4095 ∧
    (State.reset.setI 4096#16).i.toNat + (0#4).toNat > 4095 := by decide

/-- The block store of P4 placed right before its own target. -/
theorem test_hyp_StoreIsSeenByNextFetch : (State.reset.setI 0x202#16).mem.wf ∧
    (State.reset.setI 0x202#16).i.toNat + (1#4).toNat ≤ 4095 ∧ (1#4).toNat = (0#4).toNat + 1 ∧
    (1#4).toNat ≤ (1#4).toNat ∧
    ((State.reset.setI 0x202#16).pc + 2#16).toNat = effectiveAddress (State.reset.setI 0x202#16) (0#4).toNat := by decide

/-! ## The hypotheses of the statements: display, keys, timers -/

theorem test_hyp_DrawSpriteXorPlots :
    ((0#4 : Nibble) = 0#4 ∨ (State.reset.setI 0xFFFF#16).i.toNat + (0#4).toNat ≤ 4096) ∧
    ((1#4 : Nibble) = 0#4 ∨ (State.reset.setI 4095#16).i.toNat + (1#4).toNat ≤ 4096) ∧
    ((1#4 : Nibble) ≠ 0#4 ∧ (State.reset.setI 4096#16).i.toNat + (1#4).toNat > 4096) := by decide

/-- The reset state's font glyph 0 at column 0, row 0: its first pixel is plotted. -/
theorem test_spritePlots_glyph : spritePlots (State.reset.setI 0x050#16) 0#4 1#4 5#4 0 0 :=
  ⟨0, 0, by decide, by decide, by decide, by decide, by decide⟩

theorem test_hyp_DrawSpriteXorPlots_collision : ∃ px py,
    spritePlots ((State.reset.setI 0x050#16).setDisp (setPixel blankDisplay 0 0 true)) 0#4 1#4 5#4 px py ∧
    pixel ((State.reset.setI 0x050#16).setDisp (setPixel blankDisplay 0 0 true)).disp px py = true :=
  ⟨0, 0, ⟨0, 0, by decide, by decide, by decide, by decide, by decide⟩, by decide⟩

theorem test_hyp_DrawSpriteXorPlots_noCollision : ¬∃ px py,
    spritePlots (State.reset.setI 0x050#16) 0#4 1#4 5#4 px py ∧ pixel (State.reset.setI 0x050#16).disp px py = true :=
  fun ⟨px, py, _, h⟩ => Bool.false_ne_true ((pixel_blankDisplay px py).symm.trans h)

theorem test_hyp_DrawTwiceRestores : (0#4 : Nibble) ≠ 15#4 ∧ (1#4 : Nibble) ≠ 15#4 ∧
    ((5#4 : Nibble) = 0#4 ∨ (State.reset.setI 0x050#16).i.toNat + (5#4).toNat ≤ 4096) ∧
    (∃ px py, spritePlots (State.reset.setI 0x050#16) 0#4 1#4 5#4 px py) ∧
    (∀ px py, spritePlots (State.reset.setI 0x050#16) 0#4 1#4 5#4 px py →
      pixel (State.reset.setI 0x050#16).disp px py = false) :=
  ⟨by decide, by decide, by decide, ⟨0, 0, test_spritePlots_glyph⟩, fun px py _ => pixel_blankDisplay px py⟩

theorem test_hyp_KeySkips : (7#4).toNat = ((State.reset.setReg 0#4 0x17#8).reg 0#4).toNat % 16 := by decide

theorem test_hyp_SoundTimerDrivesTone : executes (start 0xF218) (.setSoundTimerToVx 2#4) := by decide

theorem test_hyp_InvalidIsDiagnosedNoOp : executes (start 0x0000) (.invalid 0x0000#16) := by decide

/-- A waiting core with keys 2 and 7 down. -/
def waiting : State :=
  (((granted [.instrIteration]).setWait (.waitingForKey 3#4)).setKeyTo 7#4 true).setKeyTo 2#4 true

theorem test_hyp_WaitResolves : nextMove waiting = .instrIteration ∧ waiting.fault = none ∧
    waiting.wait = .waitingForKey 3#4 ∧ waiting.keyDown 2#4 = true ∧
    ∀ j : Nibble, j.toNat < (2#4).toNat → waiting.keyDown j = false := by decide

/-- The boundary: the only key down is the last one. -/
theorem test_hyp_WaitResolves_last :
    (((granted [.instrIteration]).setWait (.waitingForKey 3#4)).setKeyTo 15#4 true).keyDown 15#4 = true ∧
    ∀ j : Nibble, j.toNat < (15#4).toNat →
      (((granted [.instrIteration]).setWait (.waitingForKey 3#4)).setKeyTo 15#4 true).keyDown j = false := by decide

theorem test_hyp_PollWithoutKeyChangesNothing :
    nextMove ((granted [.instrIteration]).setWait (.waitingForKey 3#4)) = .instrIteration ∧
    ((granted [.instrIteration]).setWait (.waitingForKey 3#4)).fault = none ∧
    ((granted [.instrIteration]).setWait (.waitingForKey 3#4)).wait = .waitingForKey 3#4 ∧
    ∀ j : Nibble, ((granted [.instrIteration]).setWait (.waitingForKey 3#4)).keyDown j = false := by decide

theorem test_hyp_TimerTickCountsDown : nextMove (granted [.timerTick]) = .timerTick ∧
    (granted [.timerTick]).fault = none ∧
    nextMove { granted [.timerTick] with fault := some (.loadOutOfRange 0x200 3585) } = .timerTick := by decide

theorem test_hyp_TicksRunTimersDown : (granted (List.replicate 6 .timerTick)).fault = none ∧
    (granted (List.replicate 6 .timerTick)).agenda = List.replicate 6 .timerTick := by decide

theorem test_hyp_KeyAndReadMoves : nextMove (granted [.setKey 15#4]) = .setKey 15#4 ∧
    nextMove (granted [.clearKey 0#4]) = .clearKey 0#4 ∧ nextMove (granted [.readDisplay]) = .readDisplay := by decide

theorem test_hyp_ClearDirtyMove : nextMove (granted [.clearDirty]) = .clearDirty := by decide

/-- The last load that fits, the first that does not, and a machine that has started. -/
theorem test_hyp_LoadRomCopiesAndSetsPc :
    nextMove (granted [.loadRom [1#8, 2#8] 4094]) = .loadRom [1#8, 2#8] 4094 ∧
    nextMove (granted [.loadRom [1#8, 2#8] 4095]) = .loadRom [1#8, 2#8] 4095 ∧ State.reset.mem.wf ∧
    State.reset.loadOpen = true ∧ State.reset.fault = none ∧ 4094 + [1#8, 2#8].length ≤ 4096 ∧
    4095 + [1#8, 2#8].length > 4096 ∧ (granted [.loadRom [] 0]).closeLoad.loadOpen = false ∧
    nextMove (granted [.loadRom [] 0]).closeLoad = .loadRom [] 0 := by decide

theorem test_hyp_FaultIsTerminal : (start 0x00EE).fault = none ∧
    step (start 0x00EE) = .fault (.stackUnderflow 0x00EE#16 0x200#16) ∧
    (advance (start 0x00EE)).fault = some (.stackUnderflow 0x00EE#16 0x200#16) ∧
    nextMove { advance (start 0x00EE) with agenda := [.instrIteration] } = .instrIteration ∧
    nextMove { advance (start 0x00EE) with agenda := [.timerTick] } = .timerTick :=
  ⟨by decide, rfl, by decide, by decide, by decide⟩

/-! ## The hypotheses of the statements: the whole machine -/

/-- The next state of a step, where there is one. -/
def nextState (s : State) : State :=
  match step s with
  | .next t => t
  | .fault _ => s
  | .refused _ => s

theorem test_hyp_InvariantKeptByEveryStep : (start 0x1FFF).Inv ∧
    step (start 0x1FFF) = .next (nextState (start 0x1FFF)) := ⟨by decide, rfl⟩

/-- One `exec` that answers a next state for each clause of `OnlySixInstructionsWriteVF`. -/
theorem test_hyp_OnlySixInstructionsWriteVF : (∃ t, exec (.addVyToVxWithCarry 15#4 1#4) State.reset = .next t) ∧
    (∃ t, exec (.subtractVyFromVxWithBorrow 15#4 1#4) State.reset = .next t) ∧
    (∃ t, exec (.setVxToVyMinusVx 15#4 1#4) State.reset = .next t) ∧
    (∃ t, exec (.shiftVxRightByOne 15#4 1#4) State.reset = .next t) ∧
    (∃ t, exec (.shiftVxLeftByOne 15#4 1#4) State.reset = .next t) ∧
    (∃ t, exec (.drawSprite 0#4 1#4 5#4) (State.reset.setI 0x050#16) = .next t) ∧
    (∃ t, exec (.readRegistersV0ThroughVxFromMemory 14#4) State.reset = .next t ∧ (14#4 : Nibble) ≠ 15#4) ∧
    (∃ t, exec (.storeBcdOfVxAtI 15#4) State.reset = .next t) :=
  ⟨⟨_, rfl⟩, ⟨_, rfl⟩, ⟨_, rfl⟩, ⟨_, rfl⟩, ⟨_, rfl⟩, ⟨_, rfl⟩, ⟨_, rfl, by decide⟩, ⟨_, rfl⟩⟩

theorem test_hyp_OnlySixInstructionsFault :
    exec (.callSubroutine 0x300#12) (depth 16 State.reset) = .fault (.stackOverflow 0x2300#16 0x200#16) ∧
    exec .returnFromSubroutine State.reset = .fault (.stackUnderflow 0x00EE#16 0x200#16) ∧
    exec (.storeBcdOfVxAtI 0#4) (State.reset.setI 4094#16) =
      .fault (.memOutOfRange 4096 (some 0xF033#16) 0x200#16) := ⟨rfl, rfl, rfl⟩

theorem test_hyp_OnlyInputSourceWritesKeys :
    step (granted [.setKey 7#4]) = .next (nextState (granted [.setKey 7#4])) ∧
    (nextState (granted [.setKey 7#4])).key ≠ (granted [.setKey 7#4]).key := ⟨rfl, by decide⟩

theorem test_hyp_DirtyIsSetAndClearedOnlySo :
    (step (start 0x00E0) = .next (nextState (start 0x00E0)) ∧ (start 0x00E0).dirty = false ∧
      (nextState (start 0x00E0)).dirty = true) ∧
    (step ((granted [.clearDirty]).setDirty true) = .next (nextState ((granted [.clearDirty]).setDirty true)) ∧
      (nextState ((granted [.clearDirty]).setDirty true)).dirty = false) := ⟨⟨rfl, by decide, by decide⟩, rfl, by decide⟩

theorem test_hyp_OnlyClearAndDrawChangePixels :
    step ((start 0xD015).setI 0x050#16) = .next (nextState ((start 0xD015).setI 0x050#16)) ∧
    (nextState ((start 0xD015).setI 0x050#16)).disp ≠ ((start 0xD015).setI 0x050#16).disp :=
  ⟨rfl, fun h => absurd (congrArg (fun d => pixel d 0 0) h) (by decide)⟩

theorem test_hyp_OnlyCallAndReturnChangeStack : step (start 0x2300) = .next (nextState (start 0x2300)) ∧
    (nextState (start 0x2300)).sp ≠ (start 0x2300).sp ∧ (nextState (start 0x2300)).stack ≠ (start 0x2300).stack :=
  ⟨rfl, by decide, by decide⟩

theorem test_hyp_TimersChangeOnlySo :
    (step ((granted [.timerTick]).setDt 1#8) = .next (nextState ((granted [.timerTick]).setDt 1#8)) ∧
      (nextState ((granted [.timerTick]).setDt 1#8)).dt ≠ 1#8) ∧
    (step ((start 0xF218).setReg 2#4 5#8) = .next (nextState ((start 0xF218).setReg 2#4 5#8)) ∧
      (nextState ((start 0xF218).setReg 2#4 5#8)).st ≠ 0#8) := ⟨⟨rfl, by decide⟩, rfl, by decide⟩

theorem test_hyp_OnlyThreeInstructionsWriteI : step (start 0xA300) = .next (nextState (start 0xA300)) ∧
    (nextState (start 0xA300)).i ≠ (start 0xA300).i := ⟨rfl, by decide⟩

/-- The last byte of a BCD store, of a block store, and of a load. -/
theorem test_hyp_OnlyStoresChangeMemory :
    memRead (nextState (((start 0xF033).setReg 0#4 1#8).setI 0x300#16)).mem 0x302 ≠ memRead (start 0xF033).mem 0x302 ∧
    memRead (nextState (((start 0xF155).setReg 1#4 1#8).setI 0x300#16)).mem 0x301 ≠ memRead (start 0xF155).mem 0x301 ∧
    memRead (nextState (granted [.loadRom [1#8] 4095])).mem 4095 ≠ memRead State.reset.mem 4095 := by decide

theorem test_hyp_WaitTransitions : (step (start 0xF30A) = .next (nextState (start 0xF30A)) ∧
      (nextState (start 0xF30A)).wait ≠ (start 0xF30A).wait) ∧
    (step waiting = .next (nextState waiting) ∧ (nextState waiting).wait ≠ waiting.wait) :=
  ⟨⟨rfl, by decide⟩, rfl, by decide⟩

theorem test_hyp_ToneChangesOnlyAtCycleEnd : runsCycle ((start 0xF218).setReg 2#4 5#8) ∧
    step ((start 0xF218).setReg 2#4 5#8) = .next (nextState ((start 0xF218).setReg 2#4 5#8)) ∧
    (nextState ((start 0xF218).setReg 2#4 5#8)).tone ≠ (start 0xF218).tone := ⟨by decide, rfl, by decide⟩

theorem test_hyp_ScreenIsInvisibleToOthers : (Instr.setVxToByte 15#4 0xAB#8) ≠ .clearDisplay ∧
    ∀ x y n, (Instr.setVxToByte 15#4 0xAB#8) ≠ .drawSprite x y n := ⟨nofun, nofun⟩

theorem test_hyp_SoundIsInvisibleToPrograms : ∀ x, (Instr.setVxToDelayTimer 3#4) ≠ .setSoundTimerToVx x := nofun

end Sys2Proof.Tests
end

section
/-! PROOFS. The round trip of `spec/30_encoding.md` R73. An opcode is fixed by the fields its row names
(`opcode_of_*`), which gives `Encode(Decode(op)) = op` branch by branch of R65; the fields of an encoding give
`Decode(Encode(i)) = i`; and an opcode that selects a row of R66 is the encoding of an instruction of that row, so
what is decoded as `Invalid` selects none. -/

namespace Sys2Proof.Encoding

/-! ## An opcode from the constants of its row and its operand fields (R62, R66) -/

theorem opcode_of_addr {op : Word} {f : Nibble} (hf : fieldF op = f) : f ++ fieldNnn op = op :=
  hf ▸ opcode_f_nnn op

theorem opcode_of_byte {op : Word} {f : Nibble} (hf : fieldF op = f) : f ++ fieldX op ++ fieldKk op = op :=
  hf ▸ opcode_f_x_kk op

theorem opcode_of_selector {op : Word} {f : Nibble} {kk : Byte} (h : fieldF op = f ∧ fieldKk op = kk) :
    f ++ fieldX op ++ kk = op :=
  h.2 ▸ opcode_of_byte h.1

theorem opcode_of_draw {op : Word} {f : Nibble} (hf : fieldF op = f) :
    f ++ fieldX op ++ fieldY op ++ fieldN op = op :=
  hf ▸ opcode_f_x_y_n op

theorem opcode_of_regs {op : Word} {f n : Nibble} (h : fieldF op = f ∧ fieldN op = n) :
    f ++ fieldX op ++ fieldY op ++ n = op :=
  h.2 ▸ opcode_of_draw h.1

/-! ## Encoding what was decoded: the branches of R65 -/

theorem encode_decodeFamily0 (op : Word) : encode (decodeFamily0 op) = op := by
  unfold decodeFamily0
  split
  · next h => exact h.symm
  · split
    · next h => exact h.symm
    · rfl

theorem encode_decodeFamily8 {op : Word} (hf : fieldF op = 0x8#4) : encode (decodeFamily8 op) = op := by
  unfold decodeFamily8
  split
  case h_10 => rfl
  all_goals next hn => exact opcode_of_regs ⟨hf, BitVec.eq_of_toNat_eq hn⟩

theorem encode_decodeFamilyE {op : Word} (hf : fieldF op = 0xE#4) : encode (decodeFamilyE op) = op := by
  unfold decodeFamilyE
  split
  case h_3 => rfl
  all_goals next hk => exact opcode_of_selector ⟨hf, BitVec.eq_of_toNat_eq hk⟩

theorem encode_decodeFamilyF {op : Word} (hf : fieldF op = 0xF#4) : encode (decodeFamilyF op) = op := by
  unfold decodeFamilyF
  split
  case h_10 => rfl
  all_goals next hk => exact opcode_of_selector ⟨hf, BitVec.eq_of_toNat_eq hk⟩

/-- Families 5 and 9: one instruction, where the low nibble is zero (R67). -/
theorem encode_ite_regs {op : Word} {i : Instr} (hi : fieldN op = 0#4 → encode i = op) :
    encode (if fieldN op = 0#4 then i else .invalid op) = op := by
  split
  · next hn => exact hi hn
  · rfl

/-- `Encode(Decode(op)) = op` (R73). -/
theorem encode_decode (op : Word) : encode (decode op) = op := by
  unfold decode
  split
  case h_1 => exact encode_decodeFamily0 op
  case h_9 hf => exact encode_decodeFamily8 (BitVec.eq_of_toNat_eq hf)
  case h_15 hf => exact encode_decodeFamilyE (BitVec.eq_of_toNat_eq hf)
  case h_16 =>
    simp only [imp_false] at *
    have hf : (fieldF op).toNat = 15 := by omega
    exact encode_decodeFamilyF (BitVec.eq_of_toNat_eq hf)
  case h_6 hf | h_10 hf => exact encode_ite_regs fun hn => opcode_of_regs ⟨BitVec.eq_of_toNat_eq hf, hn⟩
  case h_14 hf => exact opcode_of_draw (BitVec.eq_of_toNat_eq hf)
  case h_2 hf | h_3 hf | h_11 hf | h_12 hf => exact opcode_of_addr (BitVec.eq_of_toNat_eq hf)
  all_goals next hf => exact opcode_of_byte (BitVec.eq_of_toNat_eq hf)

/-! ## Decoding what was encoded -/

/-- An instruction other than `Invalid` is decoded from its encoding, with every operand at every value. -/
theorem decode_encode_of_tag_lt {i : Instr} (hi : instrTag i < 34) : decode (encode i) = i := by
  cases i with
  | clearDisplay | returnFromSubroutine => rfl
  | jumpToAddress nnn | callSubroutine nnn | setIToAddress nnn | jumpToAddressPlusV0 nnn =>
    simp [encode, decode, fields_f_nnn]
  | skipIfVxEqualsByte x kk | skipIfVxNotEqualsByte x kk | setVxToByte x kk | addByteToVx x kk
  | setVxToRandomAndByte x kk =>
    simp [encode, decode, fields_f_x_kk]
  | skipIfVxEqualsVy x y | skipIfVxNotEqualsVy x y | drawSprite x y n =>
    simp [encode, decode, fields_f_x_y_n]
  | setVxToVy x y | setVxToVxOrVy x y | setVxToVxAndVy x y | setVxToVxXorVy x y | addVyToVxWithCarry x y
  | subtractVyFromVxWithBorrow x y | shiftVxRightByOne x y | setVxToVyMinusVx x y | shiftVxLeftByOne x y =>
    simp [encode, decode, decodeFamily8, fields_f_x_y_n]
  | skipIfKeyVxPressed x | skipIfKeyVxNotPressed x =>
    simp [encode, decode, decodeFamilyE, fields_f_x_kk]
  | setVxToDelayTimer x | waitForKeyPressAndStoreInVx x | setDelayTimerToVx x | setSoundTimerToVx x | addVxToI x
  | setIToSpriteAddressForDigitVx x | storeBcdOfVxAtI x | storeRegistersV0ThroughVxInMemory x
  | readRegistersV0ThroughVxFromMemory x =>
    simp [encode, decode, decodeFamilyF, fields_f_x_kk]
  | invalid op => exact absurd hi (Nat.lt_irrefl 34)

/-! ## The rows of R66 and the fields they fix -/

theorem opcode_of_rowSelects_whole {op p : Word} (h : rowSelects op ⟨p, 0xFFFF⟩ = true) : p = op := by
  have hm : op &&& 0xFFFF#16 = p := eq_of_beq h
  exact hm ▸ BitVec.and_allOnes

theorem fieldF_of_rowSelects {op : Word} {f : Nibble} (h : rowSelects op ⟨f ++ 0#12, 0xF000⟩ = true) :
    fieldF op = f := by
  have hm : fieldF op ++ 0#12 = f ++ 0#12 := by
    rw [← Laws.OpcodeRow.mask_addr (fieldF op) (fieldNnn op), opcode_f_nnn]
    exact eq_of_beq h
  simpa [fields_f_nnn] using congrArg fieldF hm

theorem fieldFN_of_rowSelects {op : Word} {f n : Nibble}
    (h : rowSelects op ⟨f ++ 0#4 ++ 0#4 ++ n, 0xF00F⟩ = true) : fieldF op = f ∧ fieldN op = n := by
  have hm : fieldF op ++ 0#4 ++ 0#4 ++ fieldN op = f ++ 0#4 ++ 0#4 ++ n := by
    rw [← Laws.OpcodeRow.mask_regs (fieldF op) (fieldX op) (fieldY op) (fieldN op), opcode_f_x_y_n]
    exact eq_of_beq h
  exact ⟨by simpa [fields_f_x_y_n] using congrArg fieldF hm, by simpa [fields_f_x_y_n] using congrArg fieldN hm⟩

theorem fieldFKk_of_rowSelects {op : Word} {f : Nibble} {kk : Byte}
    (h : rowSelects op ⟨f ++ 0#4 ++ kk, 0xF0FF⟩ = true) : fieldF op = f ∧ fieldKk op = kk := by
  have hm : fieldF op ++ 0#4 ++ fieldKk op = f ++ 0#4 ++ kk := by
    rw [← Laws.OpcodeRow.mask_low (fieldF op) (fieldX op) (fieldKk op), opcode_f_x_kk]
    exact eq_of_beq h
  exact ⟨by simpa [fields_f_x_kk] using congrArg fieldF hm, by simpa [fields_f_x_kk] using congrArg fieldKk hm⟩

theorem lt_of_getElem?_opcodeRows {k : Nat} {r : OpcodeRow} (hr : opcodeRows[k]? = some r) : k < 34 :=
  (List.getElem?_eq_some_iff.mp hr).1

/-- An opcode that row `k` selects is the encoding of an instruction of that row, with the opcode's own fields. -/
theorem exists_encode_eq_of_rowSelects {op : Word} {k : Nat} {r : OpcodeRow} (hr : opcodeRows[k]? = some r)
    (h : rowSelects op r = true) : ∃ i, instrTag i = k ∧ encode i = op :=
  match k, hr, h with
  | 0, rfl, h => ⟨.clearDisplay, rfl, opcode_of_rowSelects_whole h⟩
  | 1, rfl, h => ⟨.returnFromSubroutine, rfl, opcode_of_rowSelects_whole h⟩
  | 2, rfl, h => ⟨.jumpToAddress (fieldNnn op), rfl, opcode_of_addr (fieldF_of_rowSelects h)⟩
  | 3, rfl, h => ⟨.callSubroutine (fieldNnn op), rfl, opcode_of_addr (fieldF_of_rowSelects h)⟩
  | 4, rfl, h => ⟨.skipIfVxEqualsByte (fieldX op) (fieldKk op), rfl, opcode_of_byte (fieldF_of_rowSelects h)⟩
  | 5, rfl, h => ⟨.skipIfVxNotEqualsByte (fieldX op) (fieldKk op), rfl, opcode_of_byte (fieldF_of_rowSelects h)⟩
  | 6, rfl, h => ⟨.skipIfVxEqualsVy (fieldX op) (fieldY op), rfl, opcode_of_regs (fieldFN_of_rowSelects h)⟩
  | 7, rfl, h => ⟨.setVxToByte (fieldX op) (fieldKk op), rfl, opcode_of_byte (fieldF_of_rowSelects h)⟩
  | 8, rfl, h => ⟨.addByteToVx (fieldX op) (fieldKk op), rfl, opcode_of_byte (fieldF_of_rowSelects h)⟩
  | 9, rfl, h => ⟨.setVxToVy (fieldX op) (fieldY op), rfl, opcode_of_regs (fieldFN_of_rowSelects h)⟩
  | 10, rfl, h => ⟨.setVxToVxOrVy (fieldX op) (fieldY op), rfl, opcode_of_regs (fieldFN_of_rowSelects h)⟩
  | 11, rfl, h => ⟨.setVxToVxAndVy (fieldX op) (fieldY op), rfl, opcode_of_regs (fieldFN_of_rowSelects h)⟩
  | 12, rfl, h => ⟨.setVxToVxXorVy (fieldX op) (fieldY op), rfl, opcode_of_regs (fieldFN_of_rowSelects h)⟩
  | 13, rfl, h => ⟨.addVyToVxWithCarry (fieldX op) (fieldY op), rfl, opcode_of_regs (fieldFN_of_rowSelects h)⟩
  | 14, rfl, h => ⟨.subtractVyFromVxWithBorrow (fieldX op) (fieldY op), rfl, opcode_of_regs (fieldFN_of_rowSelects h)⟩
  | 15, rfl, h => ⟨.shiftVxRightByOne (fieldX op) (fieldY op), rfl, opcode_of_regs (fieldFN_of_rowSelects h)⟩
  | 16, rfl, h => ⟨.setVxToVyMinusVx (fieldX op) (fieldY op), rfl, opcode_of_regs (fieldFN_of_rowSelects h)⟩
  | 17, rfl, h => ⟨.shiftVxLeftByOne (fieldX op) (fieldY op), rfl, opcode_of_regs (fieldFN_of_rowSelects h)⟩
  | 18, rfl, h => ⟨.skipIfVxNotEqualsVy (fieldX op) (fieldY op), rfl, opcode_of_regs (fieldFN_of_rowSelects h)⟩
  | 19, rfl, h => ⟨.setIToAddress (fieldNnn op), rfl, opcode_of_addr (fieldF_of_rowSelects h)⟩
  | 20, rfl, h => ⟨.jumpToAddressPlusV0 (fieldNnn op), rfl, opcode_of_addr (fieldF_of_rowSelects h)⟩
  | 21, rfl, h => ⟨.setVxToRandomAndByte (fieldX op) (fieldKk op), rfl, opcode_of_byte (fieldF_of_rowSelects h)⟩
  | 22, rfl, h => ⟨.drawSprite (fieldX op) (fieldY op) (fieldN op), rfl, opcode_of_draw (fieldF_of_rowSelects h)⟩
  | 23, rfl, h => ⟨.skipIfKeyVxPressed (fieldX op), rfl, opcode_of_selector (fieldFKk_of_rowSelects h)⟩
  | 24, rfl, h => ⟨.skipIfKeyVxNotPressed (fieldX op), rfl, opcode_of_selector (fieldFKk_of_rowSelects h)⟩
  | 25, rfl, h => ⟨.setVxToDelayTimer (fieldX op), rfl, opcode_of_selector (fieldFKk_of_rowSelects h)⟩
  | 26, rfl, h => ⟨.waitForKeyPressAndStoreInVx (fieldX op), rfl, opcode_of_selector (fieldFKk_of_rowSelects h)⟩
  | 27, rfl, h => ⟨.setDelayTimerToVx (fieldX op), rfl, opcode_of_selector (fieldFKk_of_rowSelects h)⟩
  | 28, rfl, h => ⟨.setSoundTimerToVx (fieldX op), rfl, opcode_of_selector (fieldFKk_of_rowSelects h)⟩
  | 29, rfl, h => ⟨.addVxToI (fieldX op), rfl, opcode_of_selector (fieldFKk_of_rowSelects h)⟩
  | 30, rfl, h => ⟨.setIToSpriteAddressForDigitVx (fieldX op), rfl, opcode_of_selector (fieldFKk_of_rowSelects h)⟩
  | 31, rfl, h => ⟨.storeBcdOfVxAtI (fieldX op), rfl, opcode_of_selector (fieldFKk_of_rowSelects h)⟩
  | 32, rfl, h => ⟨.storeRegistersV0ThroughVxInMemory (fieldX op), rfl, opcode_of_selector (fieldFKk_of_rowSelects h)⟩
  | 33, rfl, h => ⟨.readRegistersV0ThroughVxFromMemory (fieldX op), rfl, opcode_of_selector (fieldFKk_of_rowSelects h)⟩
  | n + 34, hr, _ => absurd (lt_of_getElem?_opcodeRows hr) (Nat.not_lt.mpr (Nat.le_add_left 34 n))

/-- The encoding of every instruction selects the instruction's own row (R66). -/
theorem encode_selects_own_row : ∀ i, Laws.OpcodeRow.Statement i
  | .clearDisplay => Laws.OpcodeRow.clearDisplay
  | .returnFromSubroutine => Laws.OpcodeRow.returnFromSubroutine
  | .jumpToAddress nnn => Laws.OpcodeRow.jumpToAddress nnn
  | .callSubroutine nnn => Laws.OpcodeRow.callSubroutine nnn
  | .skipIfVxEqualsByte x kk => Laws.OpcodeRow.skipIfVxEqualsByte x kk
  | .skipIfVxNotEqualsByte x kk => Laws.OpcodeRow.skipIfVxNotEqualsByte x kk
  | .skipIfVxEqualsVy x y => Laws.OpcodeRow.skipIfVxEqualsVy x y
  | .setVxToByte x kk => Laws.OpcodeRow.setVxToByte x kk
  | .addByteToVx x kk => Laws.OpcodeRow.addByteToVx x kk
  | .setVxToVy x y => Laws.OpcodeRow.setVxToVy x y
  | .setVxToVxOrVy x y => Laws.OpcodeRow.setVxToVxOrVy x y
  | .setVxToVxAndVy x y => Laws.OpcodeRow.setVxToVxAndVy x y
  | .setVxToVxXorVy x y => Laws.OpcodeRow.setVxToVxXorVy x y
  | .addVyToVxWithCarry x y => Laws.OpcodeRow.addVyToVxWithCarry x y
  | .subtractVyFromVxWithBorrow x y => Laws.OpcodeRow.subtractVyFromVxWithBorrow x y
  | .shiftVxRightByOne x y => Laws.OpcodeRow.shiftVxRightByOne x y
  | .setVxToVyMinusVx x y => Laws.OpcodeRow.setVxToVyMinusVx x y
  | .shiftVxLeftByOne x y => Laws.OpcodeRow.shiftVxLeftByOne x y
  | .skipIfVxNotEqualsVy x y => Laws.OpcodeRow.skipIfVxNotEqualsVy x y
  | .setIToAddress nnn => Laws.OpcodeRow.setIToAddress nnn
  | .jumpToAddressPlusV0 nnn => Laws.OpcodeRow.jumpToAddressPlusV0 nnn
  | .setVxToRandomAndByte x kk => Laws.OpcodeRow.setVxToRandomAndByte x kk
  | .drawSprite x y n => Laws.OpcodeRow.drawSprite x y n
  | .skipIfKeyVxPressed x => Laws.OpcodeRow.skipIfKeyVxPressed x
  | .skipIfKeyVxNotPressed x => Laws.OpcodeRow.skipIfKeyVxNotPressed x
  | .setVxToDelayTimer x => Laws.OpcodeRow.setVxToDelayTimer x
  | .waitForKeyPressAndStoreInVx x => Laws.OpcodeRow.waitForKeyPressAndStoreInVx x
  | .setDelayTimerToVx x => Laws.OpcodeRow.setDelayTimerToVx x
  | .setSoundTimerToVx x => Laws.OpcodeRow.setSoundTimerToVx x
  | .addVxToI x => Laws.OpcodeRow.addVxToI x
  | .setIToSpriteAddressForDigitVx x => Laws.OpcodeRow.setIToSpriteAddressForDigitVx x
  | .storeBcdOfVxAtI x => Laws.OpcodeRow.storeBcdOfVxAtI x
  | .storeRegistersV0ThroughVxInMemory x => Laws.OpcodeRow.storeRegistersV0ThroughVxInMemory x
  | .readRegistersV0ThroughVxFromMemory x => Laws.OpcodeRow.readRegistersV0ThroughVxFromMemory x
  | .invalid op => Laws.OpcodeRow.invalid op

/-! ## The selected row and the decoded instruction (R65 against R66) -/

theorem instrTag_lt_or_eq_invalid (i : Instr) :
    (instrTag i < 34 ∧ i.wellFormed = true) ∨ ∃ op, i = .invalid op := by
  cases i with
  | invalid op => exact .inr ⟨op, rfl⟩
  | _ => exact .inl ⟨by simp [instrTag], rfl⟩

/-- Row `k` selects exactly the opcodes that decode to an instruction of row `k`. -/
theorem rowSelects_iff_instrTag_decode {op : Word} {k : Nat} {r : OpcodeRow} (hr : opcodeRows[k]? = some r) :
    rowSelects op r = true ↔ instrTag (decode op) = k := by
  have hk := lt_of_getElem?_opcodeRows hr
  constructor
  · intro h
    obtain ⟨i, rfl, rfl⟩ := exists_encode_eq_of_rowSelects hr h
    rw [decode_encode_of_tag_lt hk]
  · rintro rfl
    obtain ⟨-, hw⟩ | ⟨w, hw⟩ := instrTag_lt_or_eq_invalid (decode op)
    · have h := encode_selects_own_row (decode op) hw
      rwa [hr, encode_decode] at h
    · rw [hw] at hk
      exact absurd hk (Nat.lt_irrefl 34)

theorem isConcreteOpcode_iff_instrTag_lt {op : Word} : isConcreteOpcode op = true ↔ instrTag (decode op) < 34 := by
  simp only [isConcreteOpcode, List.any_eq_true, List.mem_iff_getElem?]
  constructor
  · rintro ⟨r, ⟨k, hr⟩, h⟩
    exact (rowSelects_iff_instrTag_decode hr).mp h ▸ lt_of_getElem?_opcodeRows hr
  · intro ht
    have hr : opcodeRows[instrTag (decode op)]? = some opcodeRows[instrTag (decode op)] :=
      List.getElem?_eq_getElem ht
    exact ⟨_, ⟨_, hr⟩, (rowSelects_iff_instrTag_decode hr).mpr rfl⟩

/-! ## What is decoded as `Invalid` (R71, R73) -/

theorem eq_of_decode_eq_invalid {op w : Word} (h : decode op = .invalid w) : w = op :=
  (congrArg encode h).symm.trans (encode_decode op)

/-- `Decode(op)` is `Invalid(op)` exactly where no concrete row selects `op` (R71). -/
theorem decode_eq_invalid_iff {op : Word} : decode op = .invalid op ↔ isConcreteOpcode op = false := by
  rw [← Bool.not_eq_true, isConcreteOpcode_iff_instrTag_lt]
  constructor
  · intro h
    simp [h, instrTag]
  · intro h
    obtain ⟨ht, -⟩ | ⟨w, hw⟩ := instrTag_lt_or_eq_invalid (decode op)
    · exact absurd ht h
    · rw [hw, eq_of_decode_eq_invalid hw]

/-- The decoder yields no junk of the type (R73). -/
theorem wellFormed_decode (op : Word) : (decode op).wellFormed = true := by
  obtain ⟨-, hwf⟩ | ⟨w, hw⟩ := instrTag_lt_or_eq_invalid (decode op)
  · exact hwf
  · obtain rfl := eq_of_decode_eq_invalid hw
    simp [hw, Instr.wellFormed, decode_eq_invalid_iff.mp hw]

/-- `Decode(Encode(i)) = i` (R73). -/
theorem decode_encode {i : Instr} (hi : i.wellFormed = true) : decode (encode i) = i := by
  obtain ⟨ht, -⟩ | ⟨op, rfl⟩ := instrTag_lt_or_eq_invalid i
  · exact decode_encode_of_tag_lt ht
  · have hop : isConcreteOpcode op = false := by simpa [Instr.wellFormed] using hi
    exact decode_eq_invalid_iff.mpr hop

/-- Settles O1: `encode_decode` branch by branch of the decode algorithm, `decode_encode` from the fields of an
encoding, and well-formedness from the rows of the opcode map. -/
theorem encodeDecodeRoundTrip : Obligations.EncodeDecodeRoundTrip :=
  ⟨fun op => ⟨encode_decode op, wellFormed_decode op⟩, fun _ => decode_encode⟩

end Sys2Proof.Encoding
end

section
/-! PROOFS. The jumps and the register skips of `spec/40_flow.md` (R81, R83 to R87). Each of them is one assignment of
`PC` (`exec_*`), so the rule of `State.setPc` (`setPc_keeps`) gives the frame of all six; the decodings are the round
trip of R73. -/

namespace Sys2Proof.Flow
open Sys2Proof.Machine

/-! ## What an assignment of `PC` leaves unchanged -/

theorem setPc_keeps (s : State) (a : Word) :
    sameRegs s (s.setPc a) ∧ (s.setPc a).i = s.i ∧ sameBeyondRegs s (s.setPc a) :=
  ⟨State.setPc_reg s a, State.setPc_i s a,
    by simp [sameBeyondRegs, sameMem, sameStack, sameTimers, sameScreen, sameControl, sameBooks, sameOutputs]⟩

/-! ## The jumps (R81, R83) -/

theorem exec_jumpToAddress (nnn : Addr) (s : State) :
    exec (.jumpToAddress nnn) s = .next (s.setPc (addrWord nnn)) := rfl

theorem exec_jumpToAddressPlusV0 (nnn : Addr) (s : State) :
    exec (.jumpToAddressPlusV0 nnn) s = .next (s.setPc (addrWord nnn + byteWord (s.reg 0#4))) := rfl

/-- R83's bound: the sum of a 12-bit address and a byte does not overflow 16 bits. -/
theorem addrWord_add_byteWord_toNat (nnn : Addr) (b : Byte) :
    (addrWord nnn + byteWord b).toNat = nnn.toNat + b.toNat := by
  have hn := nnn.isLt
  have hb := b.isLt
  rw [BitVec.toNat_add, addrWord_toNat, byteWord_toNat]
  exact Nat.mod_eq_of_lt (by omega)

/-- Settles O9: both jumps are one assignment of `PC`, and the indexed sum fits in 16 bits. -/
theorem jumpsAssignPc : Obligations.JumpsAssignPc :=
  ⟨fun nnn => ⟨Encoding.decode_encode (i := .jumpToAddress nnn) rfl,
      Encoding.decode_encode (i := .jumpToAddressPlusV0 nnn) rfl⟩,
    fun nnn s => ⟨⟨_, exec_jumpToAddress nnn s, addrWord_toNat nnn, setPc_keeps s _⟩,
      ⟨_, exec_jumpToAddressPlusV0 nnn s, addrWord_add_byteWord_toNat nnn (s.reg 0#4), setPc_keeps s _⟩⟩⟩

/-! ## The register skips (R84 to R87) -/

/-- A skip whose condition is the Boolean of the proposition `p` (R88). -/
theorem skipIf_eq_setPc_ite {c : Bool} {p : Prop} [Decidable p] (h : c = true ↔ p) (s : State) :
    s.skipIf c = s.setPc (if p then s.pc + 4#16 else s.pc + 2#16) := by
  simp only [State.skipIf_eq, h]

theorem exec_skipIfVxEqualsByte (x : Nibble) (kk : Byte) (s : State) :
    exec (.skipIfVxEqualsByte x kk) s = .next (s.setPc (if s.reg x = kk then s.pc + 4#16 else s.pc + 2#16)) :=
  congrArg Host.Outcome.next (skipIf_eq_setPc_ite beq_iff_eq s)

theorem exec_skipIfVxNotEqualsByte (x : Nibble) (kk : Byte) (s : State) :
    exec (.skipIfVxNotEqualsByte x kk) s = .next (s.setPc (if s.reg x ≠ kk then s.pc + 4#16 else s.pc + 2#16)) :=
  congrArg Host.Outcome.next (skipIf_eq_setPc_ite bne_iff_ne s)

theorem exec_skipIfVxEqualsVy (x y : Nibble) (s : State) :
    exec (.skipIfVxEqualsVy x y) s = .next (s.setPc (if s.reg x = s.reg y then s.pc + 4#16 else s.pc + 2#16)) :=
  congrArg Host.Outcome.next (skipIf_eq_setPc_ite beq_iff_eq s)

theorem exec_skipIfVxNotEqualsVy (x y : Nibble) (s : State) :
    exec (.skipIfVxNotEqualsVy x y) s = .next (s.setPc (if s.reg x ≠ s.reg y then s.pc + 4#16 else s.pc + 2#16)) :=
  congrArg Host.Outcome.next (skipIf_eq_setPc_ite bne_iff_ne s)

/-- Settles O13: each skip is one assignment of `PC`, by its own condition. -/
theorem registerSkips : Obligations.RegisterSkips :=
  ⟨fun x kk => ⟨Encoding.decode_encode (i := .skipIfVxEqualsByte x kk) rfl,
      Encoding.decode_encode (i := .skipIfVxNotEqualsByte x kk) rfl⟩,
    fun x y => ⟨Encoding.decode_encode (i := .skipIfVxEqualsVy x y) rfl,
      Encoding.decode_encode (i := .skipIfVxNotEqualsVy x y) rfl⟩,
    fun x y kk s => ⟨⟨_, exec_skipIfVxEqualsByte x kk s, State.setPc_pc s _, setPc_keeps s _⟩,
      ⟨_, exec_skipIfVxNotEqualsByte x kk s, State.setPc_pc s _, setPc_keeps s _⟩,
      ⟨_, exec_skipIfVxEqualsVy x y s, State.setPc_pc s _, setPc_keeps s _⟩,
      ⟨_, exec_skipIfVxNotEqualsVy x y s, State.setPc_pc s _, setPc_keeps s _⟩⟩⟩

end Sys2Proof.Flow
end

section
/-! PROOFS. The register load and arithmetic of `spec/41_load_arith.md` (R90 to R92). Each of them is one assignment of
a register and then `PC + 2` (`exec_*`), so one rule for the registers (`setReg_nextPc_reg`) and one for the rest
(`setV_nextPc_keeps`, for any new register file) give the effect and the frame. -/

namespace Sys2Proof.LoadArith
open Sys2Proof.Machine

/-! ## An instruction that writes registers and advances `PC` -/

theorem setV_nextPc_keeps (s : State) (v : RegFile) :
    (s.setV v).nextPc.pc = s.pc + 2#16 ∧ (s.setV v).nextPc.i = s.i ∧ sameBeyondRegs s (s.setV v).nextPc := by
  simp [sameBeyondRegs, sameMem, sameStack, sameTimers, sameScreen, sameControl, sameBooks, sameOutputs]

theorem setReg_nextPc_keeps (s : State) (x : Nibble) (b : Byte) :
    (s.setReg x b).nextPc.pc = s.pc + 2#16 ∧ (s.setReg x b).nextPc.i = s.i ∧
      sameBeyondRegs s (s.setReg x b).nextPc :=
  setV_nextPc_keeps s (s.setReg x b).v

theorem setReg_nextPc_reg (s : State) (x : Nibble) (b : Byte) (k : Nibble) :
    (s.setReg x b).nextPc.reg k = if k = x then b else s.reg k :=
  State.setReg_reg s x b k

theorem setReg_nextPc_reg_same (s : State) (x : Nibble) (b : Byte) : (s.setReg x b).nextPc.reg x = b :=
  (setReg_nextPc_reg s x b x).trans (if_pos rfl)

theorem setReg_nextPc_reg_of_ne (s : State) {x : Nibble} (b : Byte) {k : Nibble} (h : k ≠ x) :
    (s.setReg x b).nextPc.reg k = s.reg k :=
  (setReg_nextPc_reg s x b k).trans (if_neg h)

/-! ## The loads and the add of a byte (R90, R91, R92) -/

theorem exec_setVxToByte (x : Nibble) (kk : Byte) (s : State) :
    exec (.setVxToByte x kk) s = .next (s.setReg x kk).nextPc := rfl

theorem exec_addByteToVx (x : Nibble) (kk : Byte) (s : State) :
    exec (.addByteToVx x kk) s = .next (s.setReg x (s.reg x + kk)).nextPc := rfl

theorem exec_setVxToVy (x y : Nibble) (s : State) :
    exec (.setVxToVy x y) s = .next (s.setReg x (s.reg y)).nextPc := rfl

/-- R91's sum in the register that is written: modulo 256. -/
theorem setReg_add_nextPc_reg_toNat (s : State) (x : Nibble) (kk : Byte) :
    ((s.setReg x (s.reg x + kk)).nextPc.reg x).toNat = ((s.reg x).toNat + kk.toNat) % 256 := by
  rw [setReg_nextPc_reg_same, BitVec.toNat_add]

/-- Settles O14: each instruction is one assignment of `V[x]`, with `VF` a register like any other. -/
theorem loadCopyAndAddByte : Obligations.LoadCopyAndAddByte :=
  ⟨fun x kk => ⟨Encoding.decode_encode (i := .setVxToByte x kk) rfl,
      Encoding.decode_encode (i := .addByteToVx x kk) rfl⟩,
    fun x y => Encoding.decode_encode (i := .setVxToVy x y) rfl,
    fun x y kk s => ⟨⟨_, exec_setVxToByte x kk s, setReg_nextPc_reg s x kk, setReg_nextPc_keeps s x kk⟩,
      ⟨_, exec_addByteToVx x kk s, setReg_add_nextPc_reg_toNat s x kk, fun _ => setReg_nextPc_reg_of_ne s _,
        setReg_nextPc_keeps s x _⟩,
      ⟨_, exec_setVxToVy x y s, setReg_nextPc_reg s x (s.reg y), setReg_nextPc_keeps s x _⟩⟩⟩

end Sys2Proof.LoadArith
end

section
/-! PROOFS. The address register of `spec/42_index_memory.md` (R105). The instruction is one assignment of `I` and then
`PC + 2` (`exec_setIToAddress`), so the rule of that pair, for any new value of `I` (`setI_nextPc_keeps`), gives the
frame. -/

namespace Sys2Proof.IndexMemory
open Sys2Proof.Machine

/-! ## An instruction that assigns `I` and advances `PC` -/

theorem setI_nextPc_i (s : State) (a : Word) : (s.setI a).nextPc.i = a := rfl

theorem setI_nextPc_keeps (s : State) (a : Word) :
    (s.setI a).nextPc.pc = s.pc + 2#16 ∧ sameRegs s (s.setI a).nextPc ∧ sameBeyondRegs s (s.setI a).nextPc := by
  simp [sameRegs, sameBeyondRegs, sameMem, sameStack, sameTimers, sameScreen, sameControl, sameBooks, sameOutputs]

/-! ## The load of `I` (R105) -/

theorem exec_setIToAddress (nnn : Addr) (s : State) :
    exec (.setIToAddress nnn) s = .next (s.setI (addrWord nnn)).nextPc := rfl

theorem setI_addrWord_nextPc_i_toNat (nnn : Addr) (s : State) :
    (s.setI (addrWord nnn)).nextPc.i.toNat = nnn.toNat := by
  rw [setI_nextPc_i, addrWord_toNat]

/-- Settles O19: one assignment of `I`, whose 12-bit address keeps its value in 16 bits. -/
theorem setIToAddressLoadsI : Obligations.SetIToAddressLoadsI :=
  ⟨fun nnn => Encoding.decode_encode (i := .setIToAddress nnn) rfl,
    fun nnn s => ⟨_, exec_setIToAddress nnn s, setI_addrWord_nextPc_i_toNat nnn s, setI_nextPc_keeps s _⟩⟩

end Sys2Proof.IndexMemory
end

section
/-! PROOFS. The random byte of `spec/43_display_random.md` (R117). The instruction counts its draw and then makes one
assignment of `V[x]` and `PC + 2` (`exec_setVxToRandomAndByte`), so the rules of that pair, taken at the state that has
counted the draw, give the effect and the frame. -/

namespace Sys2Proof.DisplayRandom
open Sys2Proof.Machine

/-! ## The random byte (R117) -/

theorem exec_setVxToRandomAndByte (x : Nibble) (kk : Byte) (s : State) :
    exec (.setVxToRandomAndByte x kk) s = .next (s.countDraw.setReg x (Config.draw8 s.draws &&& kk)).nextPc := rfl

/-- R117's AND-mask property, whatever the byte that is drawn. -/
theorem and_mask_and_not_mask (b kk : Byte) : b &&& kk &&& ~~~kk = 0#8 := by
  rw [BitVec.and_assoc, BitVec.and_not_self]
  exact BitVec.and_zero

theorem setReg_mask_nextPc_reg_and_not_mask (s : State) (x : Nibble) (b kk : Byte) :
    (s.setReg x (b &&& kk)).nextPc.reg x &&& ~~~kk = 0#8 := by
  rw [LoadArith.setReg_nextPc_reg_same, and_mask_and_not_mask]

theorem countDraw_setReg_nextPc_draws (s : State) (x : Nibble) (b : Byte) :
    (s.countDraw.setReg x b).nextPc.draws = s.draws + 1 := rfl

/-- Settles O28: one assignment of `V[x]` after the draw is counted; the mask property holds of every drawn byte. -/
theorem randomByteIsMasked : Obligations.RandomByteIsMasked := by
  refine ⟨fun x kk => Encoding.decode_encode (i := .setVxToRandomAndByte x kk) rfl, fun x kk s => ?_⟩
  obtain ⟨hpc, hi, hmem, hstack, htimers, hscreen, hcontrol, hbooks, hevents, -⟩ :=
    LoadArith.setReg_nextPc_keeps s.countDraw x (Config.draw8 s.draws &&& kk)
  exact ⟨_, exec_setVxToRandomAndByte x kk s, LoadArith.setReg_nextPc_reg_same _ x _,
    countDraw_setReg_nextPc_draws s x _, setReg_mask_nextPc_reg_and_not_mask _ x _ kk,
    fun _ => LoadArith.setReg_nextPc_reg_of_ne s.countDraw _,
    hpc, hi, hmem, hstack, htimers, hscreen, hcontrol, hbooks, hevents⟩

end Sys2Proof.DisplayRandom
end

section
/-! PROOFS. The key wait and the timers of `spec/44_input_timers.md` (R122 to R125). Each instruction is one assignment
(`exec_*`): of the wait state alone, or of a register or a timer and then `PC + 2`. One rule for any new values of the
two timers (`setTimers_nextPc_keeps`) gives the frame of both timer writes; the tone at the end of a cycle is
`refreshTone_tone_iff`, read through the step that executes an instruction (`step_of_executes_next`). -/

namespace Sys2Proof.InputTimers
open Sys2Proof.Machine

/-! ## Entering the wait (R122) -/

theorem exec_waitForKeyPressAndStoreInVx (x : Nibble) (s : State) :
    exec (.waitForKeyPressAndStoreInVx x) s = .next (s.setWait (.waitingForKey x)) := rfl

/-- What an assignment of the wait state leaves unchanged: `PC` too. -/
theorem setWait_keeps (s : State) (w : Wait) :
    (s.setWait w).pc = s.pc ∧ (s.setWait w).i = s.i ∧ sameRegs s (s.setWait w) ∧ sameMem s (s.setWait w) ∧
      sameStack s (s.setWait w) ∧ sameTimers s (s.setWait w) ∧ sameScreen s (s.setWait w) ∧
      (s.setWait w).fault = s.fault ∧ (s.setWait w).tone = s.tone ∧ (s.setWait w).key = s.key ∧
      sameBooks s (s.setWait w) ∧ sameOutputs s (s.setWait w) := by
  simp [sameRegs, sameMem, sameStack, sameTimers, sameScreen, sameBooks, sameOutputs]

/-- Settles O30: one assignment of the wait state, which reads neither the keys nor anything else. -/
theorem waitIsEntered : Obligations.WaitIsEntered :=
  ⟨fun x => Encoding.decode_encode (i := .waitForKeyPressAndStoreInVx x) rfl,
    fun x s => ⟨_, exec_waitForKeyPressAndStoreInVx x s, State.setWait_wait s _, setWait_keeps s _⟩⟩

/-! ## An instruction that writes a timer and advances `PC` -/

/-- Everything but the timers and `PC`. -/
abbrev sameBeyondTimers (s t : State) : Prop :=
  t.i = s.i ∧ sameRegs s t ∧ sameMem s t ∧ sameStack s t ∧ sameScreen s t ∧ sameControl s t ∧ sameBooks s t ∧
    sameOutputs s t

theorem setTimers_nextPc_keeps (s : State) (d e : Byte) :
    ((s.setDt d).setSt e).nextPc.pc = s.pc + 2#16 ∧ sameBeyondTimers s ((s.setDt d).setSt e).nextPc := by
  simp [sameBeyondTimers, sameRegs, sameMem, sameStack, sameScreen, sameControl, sameBooks, sameOutputs]

theorem setDt_nextPc_keeps (s : State) (d : Byte) :
    (s.setDt d).nextPc.pc = s.pc + 2#16 ∧ sameBeyondTimers s (s.setDt d).nextPc :=
  setTimers_nextPc_keeps s d s.st

theorem setSt_nextPc_keeps (s : State) (e : Byte) :
    (s.setSt e).nextPc.pc = s.pc + 2#16 ∧ sameBeyondTimers s (s.setSt e).nextPc :=
  setTimers_nextPc_keeps s s.dt e

theorem setDt_nextPc_timers (s : State) (d : Byte) :
    (s.setDt d).nextPc.dt = d ∧ (s.setDt d).nextPc.st = s.st := ⟨rfl, rfl⟩

theorem setSt_nextPc_timers (s : State) (e : Byte) :
    (s.setSt e).nextPc.st = e ∧ (s.setSt e).nextPc.dt = s.dt := ⟨rfl, rfl⟩

/-! ## The delay timer (R123, R124) -/

theorem exec_setVxToDelayTimer (x : Nibble) (s : State) :
    exec (.setVxToDelayTimer x) s = .next (s.setReg x s.dt).nextPc := rfl

theorem exec_setDelayTimerToVx (x : Nibble) (s : State) :
    exec (.setDelayTimerToVx x) s = .next (s.setDt (s.reg x)).nextPc := rfl

/-- Settles O31: the read is one assignment of `V[x]`, the write one of `DT`. -/
theorem delayTimerAccess : Obligations.DelayTimerAccess := by
  refine ⟨fun x => ⟨Encoding.decode_encode (i := .setVxToDelayTimer x) rfl,
    Encoding.decode_encode (i := .setDelayTimerToVx x) rfl⟩, fun x s => ⟨?read, ?write⟩⟩
  case read =>
    exact ⟨_, exec_setVxToDelayTimer x s, LoadArith.setReg_nextPc_reg s x s.dt, LoadArith.setReg_nextPc_keeps s x s.dt⟩
  case write =>
    obtain ⟨hdt, hst⟩ := setDt_nextPc_timers s (s.reg x)
    exact ⟨_, exec_setDelayTimerToVx x s, hdt, hst, setDt_nextPc_keeps s _⟩

/-! ## A step that executes an instruction, and the tone at its end (R133, R136) -/

theorem refreshTone_st (s : State) : (refreshTone s).st = s.st := rfl

theorem refreshTone_tone_iff (s : State) : (refreshTone s).tone = true ↔ s.st ≠ 0#8 := bne_iff_ne

theorem cycleStart_reg (s : State) (x : Nibble) : (cycleStart s).reg x = s.reg x := by
  simp [cycleStart]

/-- A step whose instruction answers a next state ends in that state with the tone refreshed. -/
theorem step_of_executes_next {s u : State} {i : Instr} (he : executes s i)
    (hx : exec i (cycleStart s) = .next u) : step s = .next (refreshTone u) := by
  rw [step_of_executes s i he, hx]

/-! ## The sound timer (R125) -/

theorem exec_setSoundTimerToVx (x : Nibble) (s : State) :
    exec (.setSoundTimerToVx x) s = .next (s.setSt (s.reg x)).nextPc := rfl

/-- Settles O32: one assignment of `ST`, and the refresh at the end of the cycle reads the value just written. -/
theorem soundTimerDrivesTone : Obligations.SoundTimerDrivesTone := by
  refine ⟨fun x => Encoding.decode_encode (i := .setSoundTimerToVx x) rfl, fun x s => ?instr, fun x s he => ?step⟩
  case instr =>
    obtain ⟨hst, hdt⟩ := setSt_nextPc_timers s (s.reg x)
    exact ⟨_, exec_setSoundTimerToVx x s, hst, hdt, setSt_nextPc_keeps s _⟩
  case step =>
    have hx := exec_setSoundTimerToVx x (cycleStart s)
    rw [cycleStart_reg] at hx
    obtain ⟨hst, -⟩ := setSt_nextPc_timers (cycleStart s) (s.reg x)
    exact ⟨_, step_of_executes_next he hx, (refreshTone_st _).trans hst, hst ▸ refreshTone_tone_iff _⟩

end Sys2Proof.InputTimers
end

section
/-! PROOFS. The Invalid outcome of `spec/45_invalid.md` (R130). The instruction sends one event and then makes `PC + 2`
(`exec_invalid`), so the rule of that pair, for any event (`emit_nextPc_keeps`), gives the frame; taken at the start of
a cycle and followed by the tone refresh, neither of which moves the events, `PC`, `ST` or the fault latch, it gives
the step. -/

namespace Sys2Proof.InvalidOpcode
open Sys2Proof.Machine

/-! ## An instruction that sends an event and advances `PC` -/

theorem emit_nextPc_events (s : State) (e : Event) : (s.emit e).nextPc.events = e :: s.events := rfl

theorem emit_nextPc_keeps (s : State) (e : Event) :
    (s.emit e).nextPc.pc = s.pc + 2#16 ∧ (s.emit e).nextPc.i = s.i ∧ sameRegs s (s.emit e).nextPc ∧
      sameMem s (s.emit e).nextPc ∧ sameStack s (s.emit e).nextPc ∧ sameTimers s (s.emit e).nextPc ∧
      sameScreen s (s.emit e).nextPc ∧ sameControl s (s.emit e).nextPc ∧ sameBooks s (s.emit e).nextPc ∧
      (s.emit e).nextPc.draws = s.draws := by
  simp [sameRegs, sameMem, sameStack, sameTimers, sameScreen, sameControl, sameBooks]

theorem exec_invalid (op : Word) (s : State) : exec (.invalid op) s = .next (s.emit (.diag op)).nextPc := rfl

/-! ## The two ends of a cycle (R133) -/

theorem cycleStart_keeps (s : State) :
    (cycleStart s).events = s.events ∧ (cycleStart s).pc = s.pc ∧ (cycleStart s).st = s.st ∧
      (cycleStart s).fault = s.fault := by
  simp [cycleStart]

theorem refreshTone_keeps (s : State) :
    (refreshTone s).events = s.events ∧ (refreshTone s).pc = s.pc ∧ (refreshTone s).fault = s.fault :=
  ⟨rfl, rfl, rfl⟩

/-- Settles O33: one event and `PC + 2`; a cycle adds the tone refresh, and no fault was latched where it began. -/
theorem invalidIsDiagnosedNoOp : Obligations.InvalidIsDiagnosedNoOp := by
  refine ⟨fun op s => ?instr, fun op s he => ?step⟩
  case instr =>
    exact ⟨_, exec_invalid op s, emit_nextPc_events s _, emit_nextPc_keeps s _⟩
  case step =>
    have hstep := InputTimers.step_of_executes_next he (exec_invalid op (cycleStart s))
    obtain ⟨⟨-, hlive, -⟩, -⟩ := he
    obtain ⟨hevents, hpc, hst, hfault⟩ := cycleStart_keeps s
    obtain ⟨hpc', -, -, -, -, ⟨-, hst'⟩, -, ⟨-, hfault', -, -⟩, -, -⟩ := emit_nextPc_keeps (cycleStart s) (.diag op)
    obtain ⟨heventsEnd, hpcEnd, hfaultEnd⟩ := refreshTone_keeps ((cycleStart s).emit (.diag op)).nextPc
    refine ⟨_, hstep, ?events, ?pc, ?tone, ?fault⟩
    case events => rw [heventsEnd, emit_nextPc_events, hevents]
    case pc => rw [hpcEnd, hpc', hpc]
    case tone => rw [InputTimers.refreshTone_tone_iff, hst', hst]
    case fault => rw [hfaultEnd, hfault', hfault, hlive]

end Sys2Proof.InvalidOpcode
end

section
/-! PROOFS. The host moves on the keys and the display of `spec/46_cycle_and_scheduler.md` (R146 to R148). A step is its
move made on the state whose grant is taken (`step_of_nextMove`); these three moves are one assignment of a key or one
event, so the rules of those two operations after `takeGrant` give the writes and the frames. -/

namespace Sys2Proof.HostMoves
open Sys2Proof.Machine

/-! ## A host move as a step (R144) -/

/-- A step makes the next move, whether the core has faulted or not: only the move itself reads the latch. -/
theorem step_of_nextMove {s : State} {m : Move} (h : nextMove s = m) : step s = makeMove m s.takeGrant := by
  rw [step, machineStep, h]

theorem step_of_setKey {s : State} {k : Nibble} (h : nextMove s = .setKey k) :
    step s = .next (s.takeGrant.setKeyTo k true) := step_of_nextMove h

theorem step_of_clearKey {s : State} {k : Nibble} (h : nextMove s = .clearKey k) :
    step s = .next (s.takeGrant.setKeyTo k false) := step_of_nextMove h

theorem step_of_readDisplay {s : State} (h : nextMove s = .readDisplay) :
    step s = .next (s.takeGrant.emit (.frame s.disp s.dirty)) := by
  rw [step_of_nextMove h, makeMove, hostReadDisplay, State.takeGrant_disp, State.takeGrant_dirty]

/-! ## Taking the grant, then one key or one event -/

theorem takeGrant_setKeyTo_keyDown (s : State) (k : Nibble) (b : Bool) (j : Nibble) :
    (s.takeGrant.setKeyTo k b).keyDown j = if j = k then b else s.keyDown j := by
  rw [State.setKeyTo_keyDown, State.takeGrant_keyDown]

/-- What the write of a key leaves unchanged: all but the keys and the grant taken. -/
theorem takeGrant_setKeyTo_keeps (s : State) (k : Nibble) (b : Bool) :
    let t := s.takeGrant.setKeyTo k b
    sameRegs s t ∧ t.pc = s.pc ∧ t.i = s.i ∧ sameMem s t ∧ sameStack s t ∧ sameTimers s t ∧ sameScreen s t ∧
      t.wait = s.wait ∧ t.fault = s.fault ∧ t.tone = s.tone ∧ sameOutputs s t ∧ takesOneGrant s t := by
  simp [sameRegs, sameMem, sameStack, sameTimers, sameScreen, sameOutputs, takesOneGrant]

theorem takeGrant_emit_events (s : State) (e : Event) : (s.takeGrant.emit e).events = e :: s.events := by
  rw [State.emit_events, State.takeGrant_events]

/-- What an event sent by a host move leaves unchanged: all but the events and the grant taken. -/
theorem takeGrant_emit_keeps (s : State) (e : Event) :
    let t := s.takeGrant.emit e
    sameRegs s t ∧ t.pc = s.pc ∧ t.i = s.i ∧ sameMem s t ∧ sameStack s t ∧ sameTimers s t ∧ sameScreen s t ∧
      sameControl s t ∧ t.draws = s.draws ∧ takesOneGrant s t := by
  simp [sameRegs, sameMem, sameStack, sameTimers, sameScreen, sameControl, takesOneGrant]

/-- Settles O38: each key move is one write of a key, the read is one event, and none of them reads the fault latch. -/
theorem keyAndReadMoves : Obligations.KeyAndReadMoves := by
  refine fun s => ⟨fun k hm => ?setKey, fun k hm => ?clearKey, fun hm => ?readDisplay⟩
  case setKey =>
    exact ⟨_, step_of_setKey hm, takeGrant_setKeyTo_keyDown s k true, takeGrant_setKeyTo_keeps s k true⟩
  case clearKey =>
    exact ⟨_, step_of_clearKey hm, takeGrant_setKeyTo_keyDown s k false, takeGrant_setKeyTo_keeps s k false⟩
  case readDisplay =>
    exact ⟨_, step_of_readDisplay hm, takeGrant_emit_events s _, takeGrant_emit_keeps s _⟩

end Sys2Proof.HostMoves
end

section
/-! PROOFS. The invariant of the machine (`spec/10_state.md` R15, R25, `spec/46_cycle_and_scheduler.md` R137). It reads
five fields, so every move that keeps them keeps it (`inv_of_same`); an instruction keeps it where it was fetched
(`exec_keeps_inv`, one lemma per clause), and so do the poll and the load. -/

namespace Sys2Proof.Cycle
open Sys2Proof.Machine

/-! ## The parts of a step as updates of the state -/

@[simp] theorem cycleStart_eq (s : State) : cycleStart s = s.takeGrant.closeLoad := rfl
@[simp] theorem refreshTone_eq (s : State) : refreshTone s = s.setTone (toneLevel s) := rfl
@[simp] theorem countTimers_eq (s : State) : countTimers s = (s.setDt (countDown s.dt)).setSt (countDown s.st) := rfl
@[simp] theorem hostReadDisplay_eq (s : State) : hostReadDisplay s = s.emit (.frame s.disp s.dirty) := rfl
@[simp] theorem hostClearDirty_eq (s : State) : hostClearDirty s = s.setDirty false := rfl

/-- The redraw request of R141 is an event and nothing else. -/
theorem signalRedraw_eq (s : State) :
    signalRedraw s = { s with events := if s.dirty = true then .redrawRequest :: s.events else s.events } := by
  unfold signalRedraw
  split <;> rfl

/-- A poll with no key down (R138). -/
theorem waitPoll_of_none {s : State} (r : Nibble) (h : keyPick s.key = none) : waitPoll r s = s := by
  simp [waitPoll, h]

/-- A poll that picks the key `k` (R137). -/
theorem waitPoll_of_some {s : State} (r : Nibble) {k : Nibble} (h : keyPick s.key = some k) :
    waitPoll r s = ((s.setReg r (k.setWidth 8)).setWait .running).nextPc := by
  simp [waitPoll, h]

end Sys2Proof.Cycle

namespace Sys2Proof.Invariant
open Sys2Proof.Machine

/-- Settles O43: the clauses read literal values of the reset table, and no agenda. -/
theorem invariantAtReset : Obligations.InvariantAtReset := by
  refine fun agenda => ⟨⟨List.Pairwise.nil, nofun⟩, ?pc, fun k => ?stack, nofun, fun _ => rfl⟩
  case pc => simp [State.reset, Config.progBase]
  case stack => simp [State.reset]

/-! ## A move that keeps the five fields -/

theorem inv_of_same {s t : State} (hmem : t.mem = s.mem) (hpc : t.pc = s.pc) (hstack : t.stack = s.stack)
    (hwait : t.wait = s.wait) (hload : t.loadOpen = true → s.loadOpen = true) (h : s.Inv) : t.Inv := by
  obtain ⟨wf, pc, stack, wait, load⟩ := h
  refine ⟨hmem ▸ wf, hpc ▸ pc, ?stack, ?wait, fun ho => hwait.trans (load (hload ho))⟩
  case stack => simpa only [hstack] using stack
  case wait => simpa only [hwait, hpc] using wait

theorem inv_takeGrant {s : State} (h : s.Inv) : s.takeGrant.Inv :=
  inv_of_same (by simp) (by simp) (by simp) (by simp) (by simp) h

theorem inv_cycleStart {s : State} (h : s.Inv) : (cycleStart s).Inv :=
  inv_of_same (s := s.takeGrant) rfl rfl rfl rfl nofun (inv_takeGrant h)

/-! ## An instruction that was fetched, clause by clause -/

theorem pc_add_toNat_le {a : Word} (ha : a.toNat ≤ 4094) (n : Nat) (hn : n ≤ 4) :
    (a + BitVec.ofNat 16 n).toNat ≤ 4094 + n := by
  rw [BitVec.toNat_add, BitVec.toNat_ofNat]
  omega

theorem exec_keeps_wf {i : Instr} {s t : State} (hx : exec i s = .next t) (h : s.mem.wf) : t.mem.wf := by
  obtain hm | ⟨x, -, hr, hm⟩ | ⟨x, -, hr, hm⟩ := exec_mem i s t hx
  · exact hm ▸ h
  · exact hm ▸ copyBytes_wf _ _ _ h hr
  · exact hm ▸ copyBytes_wf _ _ _ h (by rwa [regBlock_length])

theorem exec_pc_le {i : Instr} {s t : State} (hx : exec i s = .next t) (hpc : s.pc.toNat ≤ 4094)
    (hstack : ∀ k : Nibble, (s.stack[k.toNat]'k.isLt).toNat ≤ 4096) : t.pc.toNat ≤ 0x10FE := by
  obtain h | h | h | h | ⟨k, h⟩ := exec_pc i s t hx
  · rw [h]
    exact Nat.le_trans hpc (by decide)
  · rw [h]
    exact Nat.le_trans (pc_add_toNat_le hpc 2 (by decide)) (by decide)
  · rw [h]
    exact Nat.le_trans (pc_add_toNat_le hpc 4 (by decide)) (by decide)
  · exact h
  · rw [h]
    exact Nat.le_trans (hstack k) (by decide)

theorem exec_keeps_stack_le {i : Instr} {s t : State} (hx : exec i s = .next t) (hpc : s.pc.toNat ≤ 4094)
    (hstack : ∀ k : Nibble, (s.stack[k.toNat]'k.isLt).toNat ≤ 4096) (k : Nibble) :
    (t.stack[k.toNat]'k.isLt).toNat ≤ 4096 := by
  obtain ⟨h, -⟩ | ⟨nnn, -, hsp, h⟩ | ⟨-, h⟩ := exec_stack i s t hx
  · simpa only [h] using hstack k
  · simp only [h, Vector.getElem_set]
    split
    · exact pc_add_toNat_le hpc 2 (by decide)
    · exact hstack k
  · simpa only [h] using hstack k

/-- An instruction executed by a running core at a fetchable `PC`, the load port closed, keeps the invariant. -/
theorem exec_keeps_inv {i : Instr} {s t : State} (hx : exec i s = .next t) (hpc : s.pc.toNat ≤ 4094)
    (hrun : s.wait = .running) (hclosed : s.loadOpen = false) (h : s.Inv) : t.Inv := by
  obtain ⟨wf, -, stack, -, -⟩ := h
  obtain ⟨-, -, -, hload, -, -⟩ := exec_keeps i s t hx
  refine ⟨exec_keeps_wf hx wf, exec_pc_le hx hpc stack, exec_keeps_stack_le hx hpc stack, fun hw => ?wait, ?load⟩
  case wait =>
    obtain h | ⟨x, -, -, h⟩ := exec_wait i s t hx
    · exact absurd (h.trans hrun) hw
    · exact h ▸ hpc
  case load => simp [hload, hclosed]

/-! ## The poll and the load -/

theorem waitPoll_keeps_inv {s : State} (r : Nibble) (hpc : s.pc.toNat ≤ 4094) (h : s.Inv) : (waitPoll r s).Inv := by
  rcases hk : keyPick s.key with _ | k
  · rwa [Cycle.waitPoll_of_none r hk]
  · obtain ⟨wf, -, stack, -, -⟩ := h
    rw [Cycle.waitPoll_of_some r hk]
    have hnext := Nat.le_trans (pc_add_toNat_le hpc 2 (by decide)) (show 4094 + 2 ≤ 0x10FE by decide)
    exact ⟨wf, hnext, stack, fun hw => absurd rfl hw, fun _ => rfl⟩

theorem load_keeps_inv {s : State} {bytes : List Byte} {addr : Nat} (hopen : s.loadOpen = true)
    (hlen : addr + bytes.length ≤ 4096) (h : s.Inv) :
    ((s.setMem (copyBytes s.mem addr bytes)).setPc (BitVec.ofNat 16 addr)).closeLoad.Inv := by
  obtain ⟨wf, -, stack, -, hrun⟩ := h
  refine ⟨copyBytes_wf _ _ _ wf hlen, ?pc, stack, fun hw => absurd (hrun hopen) hw, nofun⟩
  case pc =>
    simp only [State.closeLoad_pc, State.setPc_pc, BitVec.toNat_ofNat]
    omega

/-- Settles O44: every move keeps the five fields the invariant reads, but for the cycle, the poll and the load, which
start from a fetchable `PC` or from an open load port. -/
theorem invariantKeptByEveryStep : Obligations.InvariantKeptByEveryStep := by
  intro s t hinv hstep
  have ⟨_, _, _, hwait, _⟩ := hinv
  obtain ⟨i, u, ⟨⟨-, -, hrun⟩, hpc, -⟩, hx, rfl⟩ | ⟨r, -, -, hw, rfl⟩ | ⟨-, -, rfl⟩ | ⟨k, -, rfl⟩ | ⟨k, -, rfl⟩ |
    ⟨-, rfl⟩ | ⟨-, rfl⟩ | ⟨bytes, addr, -, hopen, -, hlen, rfl⟩ := step_next_cases s t hstep
  · exact inv_of_same (s := u) rfl rfl rfl rfl id
      (exec_keeps_inv hx (by simpa using hpc) (by simpa using hrun) rfl (inv_cycleStart hinv))
  · exact waitPoll_keeps_inv r (by simpa using hwait (by simp [hw])) (inv_cycleStart hinv)
  · rw [Cycle.signalRedraw_eq]
    exact inv_of_same rfl rfl rfl rfl id (inv_cycleStart hinv)
  · exact inv_of_same rfl rfl rfl rfl id (inv_takeGrant hinv)
  · exact inv_of_same rfl rfl rfl rfl id (inv_takeGrant hinv)
  · exact inv_of_same rfl rfl rfl rfl id (inv_takeGrant hinv)
  · exact inv_of_same rfl rfl rfl rfl id (inv_takeGrant hinv)
  · rw [← State.takeGrant_mem]
    exact load_keeps_inv (by simpa using hopen) hlen (inv_takeGrant hinv)

end Sys2Proof.Invariant
end

section
/-! PROOFS. The decoder against the opcode map (`spec/30_encoding.md` R65, R66), the fetch and the cycle
(`spec/20_memory.md` R43, R44, `spec/46_cycle_and_scheduler.md` R133, R136), the placing of an instruction, and the
reset values (`spec/10_state.md` R37). -/

namespace Sys2Proof.Encoding

/-- Settles O2: what a row selects, and what no row selects, from the round trip of R73. -/
theorem decodeSelectsTheTableRow : Obligations.DecodeSelectsTheTableRow :=
  ⟨fun _ _ _ hr => rowSelects_iff_instrTag_decode hr, fun _ => decode_eq_invalid_iff⟩

/-- Settles O3: the decoder evaluated on the fourteen words. -/
theorem sampleWordsDecode : Obligations.SampleWordsDecode := by
  unfold Obligations.SampleWordsDecode
  decide

end Sys2Proof.Encoding

namespace Sys2Proof.Cycle
open Sys2Proof.Machine

/-! ## A cycle whose fetch fails (R44) -/

theorem step_of_fetch_gt {s : State} (hrun : runsCycle s) (hpc : 4094 < s.pc.toNat) :
    step s = .fault (.memOutOfRange (firstOutOfRange s.pc.toNat) none s.pc) := by
  obtain ⟨hm, hf, hw⟩ := hrun
  have hfetch : fetch s.takeGrant.closeLoad = .error (firstOutOfRange s.pc.toNat) :=
    (fetch_cycleStart s).trans (fetch_of_gt s hpc)
  simp [step, machineStep, hm, makeMove, instrIteration, hf, hw, cycle, hfetch, raiseFault]

theorem fetch_and_step_of_gt {s : State} (hpc : 4094 < s.pc.toNat) {a : Nat} (ha : firstOutOfRange s.pc.toNat = a) :
    fetch s = .error a ∧ (runsCycle s → step s = .fault (.memOutOfRange a none s.pc)) :=
  ha ▸ ⟨fetch_of_gt s hpc, fun hrun => step_of_fetch_gt hrun hpc⟩

/-- Settles O4: the fetch of two bytes in range, and the first address out of range on each side of 4096. -/
theorem fetchSucceedsExactlyInRange : Obligations.FetchSucceedsExactlyInRange := by
  refine fun s => ⟨fetch_of_le s, fun h => ?last, fun h => ?beyond⟩
  case last => exact fetch_and_step_of_gt (by omega) (by simp [firstOutOfRange, h])
  case beyond => exact fetch_and_step_of_gt (by omega) (if_pos h)

/-! ## A cycle that executes (R133, R136) -/

theorem refreshTone_eq_decide (t : State) : refreshTone t = { t with tone := decide (t.st ≠ 0#8) } := by
  have : toneLevel t = decide (t.st ≠ 0#8) := by simp [toneLevel, bne, Bool.beq_eq_decide_eq]
  rw [refreshTone, this]
  rfl

/-- Settles O5: `step_of_executes` with the tone refresh and the start of the cycle written out. -/
theorem stepRunsDecodedInstruction : Obligations.StepRunsDecodedInstruction := by
  refine fun s i he => ⟨?step, ?start⟩
  case step =>
    rw [step_of_executes s i he]
    cases exec i (cycleStart s) with
    | next t => exact congrArg Host.Outcome.next (refreshTone_eq_decide t)
    | fault f => rfl
    | refused r => rfl
  case start => rw [cycleStart, State.takeGrant_eq, State.closeLoad]

/-! ## An instruction placed for the next fetch (log 15) -/

theorem fetchablePc_toNat_le (s : State) : (fetchablePc s).toNat ≤ 4094 := by
  unfold fetchablePc
  split
  · assumption
  · simp [Config.progBase]

theorem opcodeAtPc_placeOpcode {s : State} (hwf : s.mem.wf) (op : Word) : opcodeAtPc (placeOpcode s op) = op := by
  obtain ⟨hsorted, -⟩ := hwf
  have hhi : memRead (placeOpcode s op).mem (placeOpcode s op).pc.toNat = highByte op := by
    simp [placeOpcode, memRead_copyBytes _ _ _ _ hsorted]
  have hlo : memRead (placeOpcode s op).mem ((placeOpcode s op).pc.toNat + 1) = lowByte op := by
    simp [placeOpcode, memRead_copyBytes _ _ _ _ hsorted]
  rw [opcodeAtPc, hhi, hlo, wordOfBytes_split]

/-- Settles O6: the placed bytes are read back, and both lie below 4096. -/
theorem placedWordRunsNext : Obligations.PlacedWordRunsNext := by
  intro s nbits w hwf
  have hpc := fetchablePc_toNat_le s
  refine ⟨⟨⟨rfl, rfl, rfl⟩, hpc, congrArg decode (opcodeAtPc_placeOpcode hwf _)⟩, copyBytes_wf _ _ _ hwf ?range⟩
  case range =>
    simp only [List.length_cons, List.length_nil]
    omega

end Sys2Proof.Cycle

namespace Sys2Proof.Reset
open Sys2Proof.Machine

/-! ## The reset values (R37) -/

theorem reset_reg (k : Nibble) : State.reset.reg k = 0#8 := by simp [State.reg, State.reset]

theorem reset_keyDown (k : Nibble) : State.reset.keyDown k = false := by simp [State.keyDown, State.reset]

theorem reset_stack (k : Nibble) : State.reset.stack[k.toNat]'k.isLt = 0#16 := by simp [State.reset]

/-- The font at `FONT_BASE` and zero elsewhere: the font is 80 bytes long (R41, R47). -/
theorem memRead_reset (a : Nat) : memRead State.reset.mem a =
    if 0x050 ≤ a ∧ a < 0x0A0 then fontData.getD (a - 0x050) 0#8 else 0#8 := by
  have hfont : fontData.length = 80 := rfl
  have hbase : fontBase = 0x050 := rfl
  show unlistedByte a = _
  rw [unlistedByte]
  by_cases hlo : fontBase ≤ a
  · rw [if_pos hlo]
    by_cases hhi : a < 0x0A0
    · exact (if_pos ⟨hlo, hhi⟩).symm
    · rw [if_neg (fun h => hhi h.2), List.getD_eq_getElem?_getD, List.getElem?_eq_none (by omega),
        Option.getD_none]
  · rw [if_neg hlo, if_neg (fun h => hlo h.1)]

/-- Settles O7: the fields of the reset state, piece by piece. -/
theorem resetValues : Obligations.ResetValues :=
  ⟨rfl, reset_reg, rfl, rfl, reset_stack, rfl, rfl, rfl, pixel_blankDisplay, rfl, reset_keyDown, rfl, rfl,
    memRead_reset⟩

/-- Settles O8: the three glyphs read from the reset memory. -/
theorem resetFontGlyphs : Obligations.ResetFontGlyphs := by
  unfold Obligations.ResetFontGlyphs
  decide

end Sys2Proof.Reset
end

section
/-! PROOFS. The call and the return of `spec/40_flow.md` (R80, R82), the ALU operations of `spec/41_load_arith.md`
(R93 to R103), the arithmetic on `I` of `spec/42_index_memory.md` (R106, R107) and the key skips of
`spec/44_input_timers.md` (R120, R121). -/

namespace Sys2Proof.Flow
open Sys2Proof.Machine

/-! ## The call and the return (R80, R82) -/

theorem exec_callSubroutine_of_lt (nnn : Addr) (s : State) (h : s.sp.val < 16) :
    exec (.callSubroutine nnn) s = .next ((s.setStack (s.stack.set s.sp.val (s.pc + 2#16) h)
      ⟨s.sp.val + 1, Nat.succ_lt_succ h⟩).setPc (addrWord nnn)) := by
  rw [exec, execCallSubroutine, push_of_lt _ _ h]

theorem exec_callSubroutine_of_full (nnn : Addr) (s : State) (h : s.sp.val = 16) :
    exec (.callSubroutine nnn) s = .fault (.stackOverflow (encode (.callSubroutine nnn)) s.pc) := by
  rw [exec, execCallSubroutine, push_of_full _ _ h, raiseFault]

theorem exec_returnFromSubroutine_of_pos (s : State) (h : 0 < s.sp.val) :
    exec .returnFromSubroutine s =
      .next ((s.setStack s.stack ⟨s.sp.val - 1, Nat.lt_of_le_of_lt (Nat.sub_le _ _) s.sp.isLt⟩).setPc
        (s.stack[s.sp.val - 1]'(by have := s.sp.isLt; show s.sp.val - 1 < 16; omega))) := by
  rw [exec, execReturnFromSubroutine, pop_of_pos _ h]

theorem exec_returnFromSubroutine_of_empty (s : State) (h : s.sp.val = 0) :
    exec .returnFromSubroutine s = .fault (.stackUnderflow (encode .returnFromSubroutine) s.pc) := by
  rw [exec, execReturnFromSubroutine, pop_of_empty _ h, raiseFault]

/-- What a change of the stack and of `PC` leaves unchanged. -/
theorem setStack_setPc_keeps (s : State) (k : Stack) (d : Fin 17) (a : Word) :
    let t := (s.setStack k d).setPc a
    sameRegs s t ∧ t.i = s.i ∧ sameMem s t ∧ sameTimers s t ∧ sameScreen s t ∧ sameControl s t ∧ sameBooks s t ∧
      sameOutputs s t := by
  simp [sameRegs, sameMem, sameTimers, sameScreen, sameControl, sameBooks, sameOutputs]

theorem stack_set_getElem (s : State) (a : Word) (h : s.sp.val < 16) (k : Nibble) :
    (s.stack.set s.sp.val a h)[k.toNat]'k.isLt = if k.toNat = s.sp.val then a else s.stack[k.toNat]'k.isLt := by
  simp only [Vector.getElem_set, eq_comm]

/-- Settles O10: the push writes the entry at the old depth and no other. -/
theorem callPushesReturnAddress : Obligations.CallPushesReturnAddress := by
  refine ⟨fun nnn => Encoding.decode_encode (i := .callSubroutine nnn) rfl,
    fun nnn s => ⟨fun h => ?room, fun h => ?full⟩⟩
  case room =>
    exact ⟨_, exec_callSubroutine_of_lt nnn s h, addrWord_toNat nnn, rfl, stack_set_getElem s _ h,
      setStack_setPc_keeps s _ _ _⟩
  case full => exact exec_callSubroutine_of_full nnn s h

/-- Settles O11: the pop reads the entry below the depth and leaves the entries as they are. -/
theorem returnPopsReturnAddress : Obligations.ReturnPopsReturnAddress := by
  refine ⟨rfl, fun s => ⟨fun h => ?held, fun h => ?empty⟩⟩
  case held =>
    exact ⟨_, exec_returnFromSubroutine_of_pos s h, Vector.getElem?_eq_getElem _, rfl, rfl,
      setStack_setPc_keeps s _ _ _⟩
  case empty => exact exec_returnFromSubroutine_of_empty s h

/-- Settles O12: the return pops the entry that the call pushed, at the depth the call left. -/
theorem callThenReturnComesBack : Obligations.CallThenReturnComesBack := by
  intro nnn s h
  obtain ⟨regs, i, mem, -, screen, -⟩ :=
    setStack_setPc_keeps s (s.stack.set s.sp.val (s.pc + 2#16) h) ⟨s.sp.val + 1, Nat.succ_lt_succ h⟩ (addrWord nnn)
  refine ⟨_, _, exec_callSubroutine_of_lt nnn s h, exec_returnFromSubroutine_of_pos _ (Nat.succ_pos _), ?pc, rfl,
    fun k hk => ?stack, regs, i, mem, screen⟩
  case pc => exact Vector.getElem_set_self _
  case stack => exact (stack_set_getElem s _ h k).trans (if_neg (Nat.ne_of_lt hk))

end Sys2Proof.Flow

namespace Sys2Proof.LoadArith
open Sys2Proof.Machine

/-! ## OR, AND and XOR (R93 to R95, R102) -/

theorem exec_setVxToVxOrVy (x y : Nibble) (s : State) :
    exec (.setVxToVxOrVy x y) s = .next (s.setReg x (s.reg x ||| s.reg y)).nextPc := rfl

theorem exec_setVxToVxAndVy (x y : Nibble) (s : State) :
    exec (.setVxToVxAndVy x y) s = .next (s.setReg x (s.reg x &&& s.reg y)).nextPc := rfl

theorem exec_setVxToVxXorVy (x y : Nibble) (s : State) :
    exec (.setVxToVxXorVy x y) s = .next (s.setReg x (s.reg x ^^^ s.reg y)).nextPc := rfl

/-- Settles O15: one assignment of `V[x]` each, read bit by bit. -/
theorem bitwiseOperations : Obligations.BitwiseOperations := by
  refine fun x y s => ⟨⟨_, exec_setVxToVxOrVy x y s, fun j _ => ?or, ?_⟩,
    ⟨_, exec_setVxToVxAndVy x y s, fun j _ => ?and, ?_⟩, ⟨_, exec_setVxToVxXorVy x y s, fun j _ => ?xor, ?_⟩⟩
  case or => rw [setReg_nextPc_reg_same, BitVec.getLsbD_or]
  case and => rw [setReg_nextPc_reg_same, BitVec.getLsbD_and]
  case xor => rw [setReg_nextPc_reg_same, BitVec.getLsbD_xor]
  all_goals exact ⟨fun _ => setReg_nextPc_reg_of_ne s _, setReg_nextPc_keeps s x _⟩

/-! ## A result and then its flag (R13, log 7) -/

theorem setResultAndFlag_nextPc_flag (s : State) (x : Nibble) (r : Byte) (c : Bool) :
    (s.setResultAndFlag x r c).nextPc.reg 15#4 = flagByte c := by
  simp

theorem setResultAndFlag_nextPc_result (s : State) {x : Nibble} (r : Byte) (c : Bool) (h : x ≠ 15#4) :
    (s.setResultAndFlag x r c).nextPc.reg x = r := by
  simp [h]

theorem setResultAndFlag_nextPc_keeps (s : State) (x : Nibble) (r : Byte) (c : Bool) :
    let t := (s.setResultAndFlag x r c).nextPc
    (∀ k, k ≠ x → k ≠ 15#4 → t.reg k = s.reg k) ∧ t.pc = s.pc + 2#16 ∧ t.i = s.i ∧ sameBeyondRegs s t :=
  ⟨fun k hx hF => by simp [hx, hF], setV_nextPc_keeps s (s.setResultAndFlag x r c).v⟩

/-! ## The flags as numbers (R96 to R100) -/

theorem flagByte_decide (p : Prop) [Decidable p] : flagByte (decide p) = if p then 1#8 else 0#8 := by
  simp [flagByte]

theorem flagByte_toNat (c : Bool) : (flagByte c).toNat = c.toNat := by
  cases c <;> rfl

theorem flagByte_shiftedOutRight_toNat (b : Byte) : (flagByte (shiftedOutRight b)).toNat = b.toNat % 2 := by
  rw [flagByte_toNat, shiftedOutRight, BitVec.getLsbD, Nat.toNat_testBit, Nat.pow_zero, Nat.div_one]

theorem flagByte_shiftedOutLeft_toNat (b : Byte) : (flagByte (shiftedOutLeft b)).toNat = b.toNat / 128 := by
  have := b.isLt
  rw [flagByte_toNat, shiftedOutLeft, BitVec.getLsbD, Nat.toNat_testBit]
  omega

/-- The difference of two bytes is the integer one modulo 256. -/
theorem byte_sub_toNat (a b : Byte) : ((a - b).toNat : Int) = ((a.toNat : Int) - b.toNat) % 256 := by
  have := a.isLt
  have := b.isLt
  rw [BitVec.toNat_sub]
  omega

/-! ## The add with carry, the subtractions and the shifts (R96 to R100) -/

theorem exec_addVyToVxWithCarry (x y : Nibble) (s : State) : exec (.addVyToVxWithCarry x y) s =
    .next (s.setResultAndFlag x (s.reg x + s.reg y) (carryOut (s.reg x) (s.reg y))).nextPc := rfl

theorem exec_subtractVyFromVxWithBorrow (x y : Nibble) (s : State) : exec (.subtractVyFromVxWithBorrow x y) s =
    .next (s.setResultAndFlag x (s.reg x - s.reg y) (noBorrow (s.reg x) (s.reg y))).nextPc := rfl

theorem exec_setVxToVyMinusVx (x y : Nibble) (s : State) : exec (.setVxToVyMinusVx x y) s =
    .next (s.setResultAndFlag x (s.reg y - s.reg x) (noBorrow (s.reg y) (s.reg x))).nextPc := rfl

theorem exec_shiftVxRightByOne (x y : Nibble) (s : State) : exec (.shiftVxRightByOne x y) s =
    .next (s.setResultAndFlag x (s.reg y >>> 1) (shiftedOutRight (s.reg y))).nextPc := rfl

theorem exec_shiftVxLeftByOne (x y : Nibble) (s : State) : exec (.shiftVxLeftByOne x y) s =
    .next (s.setResultAndFlag x (s.reg y <<< 1) (shiftedOutLeft (s.reg y))).nextPc := rfl

/-- Settles O16: the rule of result and flag with the carry of the two operands. -/
theorem addWithCarry : Obligations.AddWithCarry := by
  refine fun x y s => ⟨_, exec_addVyToVxWithCarry x y s, ?flag, fun h => ?result, setResultAndFlag_nextPc_keeps s x _ _⟩
  case flag => rw [setResultAndFlag_nextPc_flag, carryOut, flagByte_decide]
  case result => rw [setResultAndFlag_nextPc_result s _ _ h, BitVec.toNat_add]

/-- Settles O17: the rule of result and flag with minuend and subtrahend in both orders. -/
theorem subtractionsSetNotBorrow : Obligations.SubtractionsSetNotBorrow := by
  refine fun x y s => ⟨⟨_, exec_subtractVyFromVxWithBorrow x y s, ?flag, fun h => ?result,
      setResultAndFlag_nextPc_keeps s x _ _⟩,
    ⟨_, exec_setVxToVyMinusVx x y s, ?flagReversed, fun h => ?resultReversed, setResultAndFlag_nextPc_keeps s x _ _⟩⟩
  case flag | flagReversed => rw [setResultAndFlag_nextPc_flag, noBorrow, flagByte_decide]
  case result | resultReversed => rw [setResultAndFlag_nextPc_result s _ _ h, byte_sub_toNat]

/-- Settles O18: the rule of result and flag with the source `V[y]` and the bit it loses. -/
theorem shiftsPutBitIntoVF : Obligations.ShiftsPutBitIntoVF := by
  refine fun x y s => ⟨⟨_, exec_shiftVxRightByOne x y s, ?flagRight, fun h => ?resultRight,
      setResultAndFlag_nextPc_keeps s x _ _⟩,
    ⟨_, exec_shiftVxLeftByOne x y s, ?flagLeft, fun h => ?resultLeft, setResultAndFlag_nextPc_keeps s x _ _⟩⟩
  case flagRight => rw [setResultAndFlag_nextPc_flag, flagByte_shiftedOutRight_toNat]
  case flagLeft => rw [setResultAndFlag_nextPc_flag, flagByte_shiftedOutLeft_toNat]
  case resultRight =>
    rw [setResultAndFlag_nextPc_result s _ _ h, BitVec.toNat_ushiftRight, Nat.shiftRight_eq_div_pow, Nat.pow_one]
  case resultLeft =>
    rw [setResultAndFlag_nextPc_result s _ _ h, BitVec.toNat_shiftLeft, Nat.shiftLeft_eq, Nat.pow_one]

end Sys2Proof.LoadArith

namespace Sys2Proof.IndexMemory
open Sys2Proof.Machine

/-! ## The arithmetic on `I` (R106, R107) -/

theorem exec_addVxToI (x : Nibble) (s : State) :
    exec (.addVxToI x) s = .next (s.setI (s.i + byteWord (s.reg x))).nextPc := rfl

theorem exec_setIToSpriteAddressForDigitVx (x : Nibble) (s : State) : exec (.setIToSpriteAddressForDigitVx x) s =
    .next (s.setI (glyphAddress (fontDigitOf (s.reg x)))).nextPc := rfl

theorem glyphAddress_toNat (d : Nibble) : (glyphAddress d).toNat = 0x050 + 5 * d.toNat := by
  have := d.isLt
  rw [glyphAddress, BitVec.toNat_ofNat, fontBase, glyphBytes]
  omega

/-- Settles O20: one assignment of `I` each: the 16-bit sum, and the address of the glyph of the low nibble. -/
theorem indexArithmetic : Obligations.IndexArithmetic := by
  refine fun x s => ⟨⟨_, exec_addVxToI x s, ?sum, setI_nextPc_keeps s _⟩,
    ⟨_, exec_setIToSpriteAddressForDigitVx x s, ?glyph, setI_nextPc_keeps s _⟩⟩
  case sum => rw [setI_nextPc_i, BitVec.toNat_add, byteWord_toNat]
  case glyph => rw [setI_nextPc_i, glyphAddress_toNat, fontDigitOf, lowNibble_toNat]

end Sys2Proof.IndexMemory

namespace Sys2Proof.InputTimers
open Sys2Proof.Machine

/-! ## The key skips (R120, R121, R126) -/

theorem exec_skipIfKeyVxPressed (x : Nibble) (s : State) : exec (.skipIfKeyVxPressed x) s =
    .next (s.setPc (if s.keyDown (keyIndexOf (s.reg x)) = true then s.pc + 4#16 else s.pc + 2#16)) :=
  congrArg Host.Outcome.next (Flow.skipIf_eq_setPc_ite Iff.rfl s)

theorem exec_skipIfKeyVxNotPressed (x : Nibble) (s : State) : exec (.skipIfKeyVxNotPressed x) s =
    .next (s.setPc (if s.keyDown (keyIndexOf (s.reg x)) = false then s.pc + 4#16 else s.pc + 2#16)) :=
  congrArg Host.Outcome.next (Flow.skipIf_eq_setPc_ite (by simp) s)

theorem keyIndexOf_eq {b : Byte} {k : Nibble} (h : k.toNat = b.toNat % 16) : keyIndexOf b = k :=
  BitVec.eq_of_toNat_eq ((lowNibble_toNat b).trans h.symm)

/-- Settles O29: each skip is one assignment of `PC`, by the key of the low nibble. -/
theorem keySkips : Obligations.KeySkips := by
  intro x k s hk
  obtain rfl := keyIndexOf_eq hk
  exact ⟨⟨_, exec_skipIfKeyVxPressed x s, State.setPc_pc s _, Flow.setPc_keeps s _⟩,
    ⟨_, exec_skipIfKeyVxNotPressed x s, State.setPc_pc s _, Flow.setPc_keeps s _⟩⟩

end Sys2Proof.InputTimers
end

section
/-! PROOFS. The memory transfers of `spec/42_index_memory.md` (R109 to R112). Each of them is one access of several
bytes from `I`, which fits or faults at the first address out of range (`writeBytes_of_le`, `writeBytes_of_gt` and
their fellows for reads); what the stored block reads as is `memRead_copyBytes_at`. -/

namespace Sys2Proof.IndexMemory
open Sys2Proof.Machine

/-! ## An access of several bytes: it fits, or it faults (R42, R49) -/

theorem writeBytes_of_le (m : Memory) {a : Nat} {bs : List Byte} (h : a + bs.length ≤ 4096) :
    writeBytes m a bs = .ok (copyBytes m a bs) := by
  rw [writeBytes_eq, if_pos (.inr h)]

theorem writeBytes_of_gt (m : Memory) {a : Nat} {bs : List Byte} (hbs : bs ≠ []) (h : 4096 < a + bs.length) :
    writeBytes m a bs = .error (firstOutOfRange a) := by
  rw [writeBytes_eq, if_neg (not_or.2 ⟨hbs, Nat.not_le.2 h⟩), firstOutOfRange]

/-- The `n` bytes from `I`. -/
def bytesAtI (s : State) (n : Nat) : List Byte := (List.range n).map fun k => memRead s.mem (effectiveAddress s k)

theorem bytesAtI_length (s : State) (n : Nat) : (bytesAtI s n).length = n := by
  simp [bytesAtI]

theorem bytesAtI_getD (s : State) {n k : Nat} (h : k < n) :
    (bytesAtI s n).getD k 0#8 = memRead s.mem (effectiveAddress s k) := by
  simp [bytesAtI, List.getD_eq_getElem?_getD, h]

theorem readBytes_of_le (s : State) {n : Nat} (h : n = 0 ∨ s.i.toNat + n ≤ 4096) :
    readBytes s.mem (effectiveAddress s 0) n = .ok (bytesAtI s n) :=
  (readBytes_eq ..).trans (if_pos h)

theorem readBytes_of_gt (s : State) {n : Nat} (hn : n ≠ 0) (h : 4096 < s.i.toNat + n) :
    readBytes s.mem (effectiveAddress s 0) n = .error (firstOutOfRange (effectiveAddress s 0)) :=
  (readBytes_eq ..).trans (if_neg (not_or.2 ⟨hn, Nat.not_le.2 h⟩))

/-- Byte `k` of a copied block, read back. -/
theorem memRead_copyBytes_at {m : Memory} (hm : m.wf) (a : Nat) {bs : List Byte} {k : Nat} (hk : k < bs.length) :
    memRead (copyBytes m a bs) (a + k) = bs.getD k 0#8 := by
  obtain ⟨hsorted, -⟩ := hm
  rw [memRead_copyBytes _ _ _ _ hsorted, if_pos (by omega), Nat.add_sub_cancel_left]

/-! ## The stores (R109, R110) -/

/-- What a new memory and `PC + 2` leave unchanged. -/
theorem setMem_nextPc_keeps (s : State) (m : Memory) :
    let t := (s.setMem m).nextPc
    t.pc = s.pc + 2#16 ∧ t.i = s.i ∧ sameRegs s t ∧ sameStack s t ∧ sameTimers s t ∧ sameScreen s t ∧
      sameControl s t ∧ sameBooks s t ∧ sameOutputs s t := by
  simp [sameRegs, sameStack, sameTimers, sameScreen, sameControl, sameBooks, sameOutputs]

theorem exec_storeBcdOfVxAtI_of_le (x : Nibble) {s : State} (h : s.i.toNat + 2 ≤ 4095) :
    exec (.storeBcdOfVxAtI x) s =
      .next (s.setMem (copyBytes s.mem (effectiveAddress s 0) (bcdDigits (s.reg x)))).nextPc := by
  have hfit : effectiveAddress s 0 + (bcdDigits (s.reg x)).length ≤ 4096 := Nat.succ_le_succ h
  rw [exec, execStoreBcdOfVxAtI, writeBytes_of_le _ hfit]

theorem exec_storeBcdOfVxAtI_of_gt (x : Nibble) {s : State} (h : 4095 < s.i.toNat + 2) :
    exec (.storeBcdOfVxAtI x) s =
      .fault (.memOutOfRange (firstOutOfRange (effectiveAddress s 0)) (some (encode (.storeBcdOfVxAtI x))) s.pc) := by
  have hne : bcdDigits (s.reg x) ≠ [] := List.cons_ne_nil _ _
  have hover : 4096 < effectiveAddress s 0 + (bcdDigits (s.reg x)).length := Nat.succ_lt_succ h
  rw [exec, execStoreBcdOfVxAtI, writeBytes_of_gt _ hne hover]
  rfl

theorem bcdDigits_getD_toNat (b : Byte) : ((bcdDigits b).getD 0 0#8).toNat = b.toNat / 100 ∧
    ((bcdDigits b).getD 1 0#8).toNat = b.toNat / 10 % 10 ∧ ((bcdDigits b).getD 2 0#8).toNat = b.toNat % 10 := by
  have := b.isLt
  refine ⟨?_, ?_, ?_⟩ <;> simp [bcdDigits] <;> omega

/-- Settles O21: the three digits copied to `I`, read back one by one. -/
theorem bcdStore : Obligations.BcdStore := by
  refine ⟨fun x => Encoding.decode_encode (i := .storeBcdOfVxAtI x) rfl,
    fun x s hwf => ⟨fun h => ?fits, fun h => ?beyond⟩⟩
  case fits =>
    obtain ⟨hundreds, tens, ones⟩ := bcdDigits_getD_toNat (s.reg x)
    have hread (k : Nat) (hk : k < 3) := memRead_copyBytes_at hwf (effectiveAddress s 0) (bs := bcdDigits (s.reg x)) hk
    refine ⟨_, exec_storeBcdOfVxAtI_of_le x h, ?_, ?_, ?_, memRead_copyBytes_outside (bcdDigits (s.reg x)) _ _,
      setMem_nextPc_keeps s _⟩
    · exact (congrArg BitVec.toNat (hread 0 (by decide))).trans hundreds
    · exact (congrArg BitVec.toNat (hread 1 (by decide))).trans tens
    · exact (congrArg BitVec.toNat (hread 2 (by decide))).trans ones
  case beyond => exact exec_storeBcdOfVxAtI_of_gt x h

theorem exec_storeRegistersV0ThroughVxInMemory_of_le {x : Nibble} {s : State} (h : s.i.toNat + x.toNat ≤ 4095) :
    exec (.storeRegistersV0ThroughVxInMemory x) s =
      .next (s.setMem (copyBytes s.mem (effectiveAddress s 0) (s.regBlock x))).nextPc := by
  have hfit : effectiveAddress s 0 + (s.regBlock x).length ≤ 4096 := by
    rw [regBlock_length]
    exact Nat.succ_le_succ h
  rw [exec, execStoreRegistersV0ThroughVxInMemory, writeBytes_of_le _ hfit]

theorem exec_storeRegistersV0ThroughVxInMemory_of_gt {x : Nibble} {s : State} (h : 4095 < s.i.toNat + x.toNat) :
    exec (.storeRegistersV0ThroughVxInMemory x) s = .fault (.memOutOfRange (firstOutOfRange (effectiveAddress s 0))
      (some (encode (.storeRegistersV0ThroughVxInMemory x))) s.pc) := by
  have hne : s.regBlock x ≠ [] := List.ne_nil_of_length_eq_add_one (regBlock_length s x)
  have hover : 4096 < effectiveAddress s 0 + (s.regBlock x).length := by
    rw [regBlock_length]
    exact Nat.succ_lt_succ h
  rw [exec, execStoreRegistersV0ThroughVxInMemory, writeBytes_of_gt _ hne hover]
  rfl

/-- Byte `k` of a stored register block is `V[k]`. -/
theorem memRead_copyBytes_regBlock {s : State} (hwf : s.mem.wf) {x k : Nibble} (hk : k.toNat ≤ x.toNat) :
    memRead (copyBytes s.mem (effectiveAddress s 0) (s.regBlock x)) (effectiveAddress s k.toNat) = s.reg k :=
  (memRead_copyBytes_at hwf _ (by rw [regBlock_length]; omega)).trans (regBlock_getD s x k hk)

/-- Settles O22: the register block copied to `I`, read back register by register. -/
theorem registerBlockStore : Obligations.RegisterBlockStore := by
  refine ⟨fun x => Encoding.decode_encode (i := .storeRegistersV0ThroughVxInMemory x) rfl,
    fun x s hwf => ⟨fun h => ?fits, fun h => ?beyond⟩⟩
  case fits =>
    refine ⟨_, exec_storeRegistersV0ThroughVxInMemory_of_le h, fun k => memRead_copyBytes_regBlock hwf,
      fun a ha => memRead_copyBytes_outside _ _ _ _ ?outside, setMem_nextPc_keeps s _⟩
    case outside =>
      rw [regBlock_length]
      exact fun ⟨hlo, hhi⟩ => ha ⟨hlo, Nat.le_of_lt_succ hhi⟩
  case beyond => exact exec_storeRegistersV0ThroughVxInMemory_of_gt h

/-- Settles O24: the fetch reads the memory the store left, at the two addresses the block covers (R53). -/
theorem storeIsSeenByNextFetch : Obligations.StoreIsSeenByNextFetch := by
  intro x k j s hwf hfit hj hjx hpc
  refine ⟨_, exec_storeRegistersV0ThroughVxInMemory_of_le hfit, ?fetch⟩
  have hpc_le : (s.pc + 2#16).toNat ≤ 4094 := by
    rw [hpc, effectiveAddress]
    omega
  have hpc_succ : (s.pc + 2#16).toNat + 1 = effectiveAddress s j.toNat := by
    rw [hpc, hj, effectiveAddress, effectiveAddress, Nat.add_assoc]
  have hhi := memRead_copyBytes_regBlock hwf (x := x) (k := k) (by omega)
  have hlo := memRead_copyBytes_regBlock hwf hjx
  rw [← hpc] at hhi
  rw [← hpc_succ] at hlo
  exact (fetch_of_le _ hpc_le).trans (congrArg Except.ok (congr (congrArg wordOfBytes hhi) hlo))

/-! ## The load (R111) -/

theorem exec_readRegistersV0ThroughVxFromMemory_of_le {x : Nibble} {s : State} (h : s.i.toNat + x.toNat ≤ 4095) :
    exec (.readRegistersV0ThroughVxFromMemory x) s =
      .next (s.setV (loadRegs s.v 0 (bytesAtI s (x.toNat + 1)))).nextPc := by
  rw [exec, execReadRegistersV0ThroughVxFromMemory, blockLength, readBytes_of_le s (.inr (Nat.succ_le_succ h))]

theorem exec_readRegistersV0ThroughVxFromMemory_of_gt {x : Nibble} {s : State} (h : 4095 < s.i.toNat + x.toNat) :
    exec (.readRegistersV0ThroughVxFromMemory x) s = .fault (.memOutOfRange (firstOutOfRange (effectiveAddress s 0))
      (some (encode (.readRegistersV0ThroughVxFromMemory x))) s.pc) := by
  rw [exec, execReadRegistersV0ThroughVxFromMemory, blockLength,
    readBytes_of_gt s (Nat.succ_ne_zero _) (Nat.succ_lt_succ h)]
  rfl

theorem loadRegs_bytesAtI_reg (s : State) (x k : Nibble) :
    (s.setV (loadRegs s.v 0 (bytesAtI s (x.toNat + 1)))).reg k =
      if k.toNat ≤ x.toNat then memRead s.mem (effectiveAddress s k.toNat) else s.reg k := by
  rw [loadRegs_reg, bytesAtI_length]
  by_cases h : k.toNat ≤ x.toNat
  · rw [if_pos h, if_pos (Nat.lt_succ_of_le h), bytesAtI_getD s (Nat.lt_succ_of_le h)]
  · rw [if_neg h, if_neg (fun hlt => h (Nat.le_of_lt_succ hlt))]

/-- Settles O23: the bytes from `I`, loaded register by register. -/
theorem registerBlockLoad : Obligations.RegisterBlockLoad := by
  refine ⟨fun x => Encoding.decode_encode (i := .readRegistersV0ThroughVxFromMemory x) rfl,
    fun x s => ⟨fun h => ?fits, fun h => ?beyond⟩⟩
  case fits =>
    exact ⟨_, exec_readRegistersV0ThroughVxFromMemory_of_le h, loadRegs_bytesAtI_reg s x,
      LoadArith.setV_nextPc_keeps s _⟩
  case beyond => exact exec_readRegistersV0ThroughVxFromMemory_of_gt h

end Sys2Proof.IndexMemory
end

section
/-! PROOFS. The display of `spec/43_display_random.md` (R115, R116, R118, R119). A draw whose rows are in range ends in
the state `drawn`; `drawn_pixel`, `drawn_flag` and `drawn_dirty` say what it holds, and both draws of R119 follow from
them because the second draw plots the same pixels. -/

namespace Sys2Proof.DisplayRandom
open Sys2Proof.Machine Sys2Proof.IndexMemory

/-! ## An instruction that writes the screen and registers and advances `PC` -/

theorem setScreen_setV_nextPc_keeps (s : State) (d : Display) (b : Bool) (v : RegFile) :
    let t := (((s.setDisp d).setDirty b).setV v).nextPc
    t.pc = s.pc + 2#16 ∧ t.i = s.i ∧ sameMem s t ∧ sameStack s t ∧ sameTimers s t ∧ sameControl s t ∧ sameBooks s t ∧
      sameOutputs s t := by
  simp [sameMem, sameStack, sameTimers, sameControl, sameBooks, sameOutputs]

theorem exec_clearDisplay (s : State) :
    exec .clearDisplay s = .next ((s.setDisp blankDisplay).setDirty true).nextPc := rfl

/-- Settles O25: the blank grid and the flag are assigned whatever the screen held. -/
theorem clearDisplayBlanks : Obligations.ClearDisplayBlanks := by
  refine ⟨rfl, fun s => ?_⟩
  obtain ⟨pc, i, rest⟩ := setScreen_setV_nextPc_keeps s blankDisplay true s.v
  exact ⟨_, exec_clearDisplay s, pixel_blankDisplay, rfl, pc, i, fun _ => rfl, rest⟩

/-! ## The outcome of a draw (R116) -/

/-- The plot of the `n` sprite rows at `I`. -/
def spritePlot (s : State) (x y n : Nibble) : Plot := drawSpriteOn s.disp (s.reg x) (s.reg y) (bytesAtI s n.toNat)

/-- The state a draw in range ends in. -/
def drawn (s : State) (x y n : Nibble) : State :=
  (((s.setDisp (spritePlot s x y n).disp).setDirty (s.dirty || (spritePlot s x y n).plotted)).setVF
    (flagByte (spritePlot s x y n).collision)).nextPc

theorem exec_drawSprite_of_le (x y : Nibble) {n : Nibble} {s : State} (h : n = 0#4 ∨ s.i.toNat + n.toNat ≤ 4096) :
    exec (.drawSprite x y n) s = .next (drawn s x y n) := by
  rw [exec, execDrawSprite, readBytes_of_le s (h.imp_left (congrArg BitVec.toNat))]
  rfl

theorem exec_drawSprite_of_gt (x y : Nibble) {n : Nibble} {s : State} (hn : n ≠ 0#4)
    (h : 4096 < s.i.toNat + n.toNat) : exec (.drawSprite x y n) s =
      .fault (.memOutOfRange (firstOutOfRange (effectiveAddress s 0)) (some (encode (.drawSprite x y n))) s.pc) := by
  rw [exec, execDrawSprite, readBytes_of_gt s (fun e => hn (BitVec.eq_of_toNat_eq e)) h]
  rfl

/-- A draw that answers a next state was in range. -/
theorem eq_drawn_of_exec_drawSprite {x y n : Nibble} {s t : State} (h : exec (.drawSprite x y n) s = .next t) :
    t = drawn s x y n := by
  by_cases hn : n = 0#4
  · exact (Host.Outcome.next.inj ((exec_drawSprite_of_le x y (.inl hn)).symm.trans h)).symm
  · by_cases hr : s.i.toNat + n.toNat ≤ 4096
    · exact (Host.Outcome.next.inj ((exec_drawSprite_of_le x y (.inr hr)).symm.trans h)).symm
    · rw [exec_drawSprite_of_gt x y hn (by omega)] at h
      cases h

/-! ## What a draw leaves -/

theorem plots_bytesAtI_iff (s : State) (x y n : Nibble) (px : Fin 64) (py : Fin 32) :
    plots (s.reg x) (s.reg y) (bytesAtI s n.toNat) px py ↔ spritePlots s x y n px py := by
  unfold plots spritePlots
  rw [bytesAtI_length]
  refine exists_congr fun row => exists_congr fun bit => and_congr_right fun hrow => and_congr_right fun _ => ?_
  rw [bytesAtI_getD s hrow, Fin.ext_iff, Fin.ext_iff, eq_comm (b := px.val), eq_comm (b := py.val)]
  rfl

theorem spritePlot_spec (s : State) (x y n : Nibble) :
    (∀ px py, pixel (spritePlot s x y n).disp px py = true ↔
      ¬(pixel s.disp px py = true ↔ spritePlots s x y n px py)) ∧
    ((spritePlot s x y n).collision = true ↔ ∃ px py, spritePlots s x y n px py ∧ pixel s.disp px py = true) ∧
    ((spritePlot s x y n).plotted = true ↔ ∃ px py, spritePlots s x y n px py) := by
  have hn := n.isLt
  have h := drawSpriteOn_spec s.disp (s.reg x) (s.reg y) (bytesAtI s n.toNat) (by rw [bytesAtI_length]; omega)
  simp only [plots_bytesAtI_iff] at h
  exact h

theorem drawn_pixel (s : State) (x y n : Nibble) (px : Fin 64) (py : Fin 32) :
    pixel (drawn s x y n).disp px py = true ↔ ¬(pixel s.disp px py = true ↔ spritePlots s x y n px py) := by
  obtain ⟨hpixel, -, -⟩ := spritePlot_spec s x y n
  exact hpixel px py

/-- `VF` after a draw is 1 exactly where a plotted pixel was lit, and 0 elsewhere. -/
theorem drawn_flag (s : State) (x y n : Nibble) :
    ((∃ px py, spritePlots s x y n px py ∧ pixel s.disp px py = true) → (drawn s x y n).reg 15#4 = 1#8) ∧
    (¬(∃ px py, spritePlots s x y n px py ∧ pixel s.disp px py = true) → (drawn s x y n).reg 15#4 = 0#8) := by
  obtain ⟨-, hcollision, -⟩ := spritePlot_spec s x y n
  have hreg : (drawn s x y n).reg 15#4 = flagByte (spritePlot s x y n).collision := by simp [drawn]
  rw [hreg, ← hcollision]
  cases (spritePlot s x y n).collision <;> simp [flagByte]

theorem drawn_reg_of_ne (s : State) (x y n : Nibble) {k : Nibble} (h : k ≠ 15#4) :
    (drawn s x y n).reg k = s.reg k := by
  simp [drawn, h]

theorem drawn_dirty (s : State) (x y n : Nibble) :
    (drawn s x y n).dirty = true ↔ s.dirty = true ∨ ∃ px py, spritePlots s x y n px py := by
  obtain ⟨-, -, hplotted⟩ := spritePlot_spec s x y n
  have hdirty : (drawn s x y n).dirty = (s.dirty || (spritePlot s x y n).plotted) := rfl
  rw [hdirty, Bool.or_eq_true, hplotted]

theorem drawn_keeps (s : State) (x y n : Nibble) :
    (drawn s x y n).pc = s.pc + 2#16 ∧ (drawn s x y n).i = s.i ∧ sameMem s (drawn s x y n) ∧
      sameStack s (drawn s x y n) ∧ sameTimers s (drawn s x y n) ∧ sameControl s (drawn s x y n) ∧
      sameBooks s (drawn s x y n) ∧ sameOutputs s (drawn s x y n) :=
  setScreen_setV_nextPc_keeps s _ _ _

/-- Settles O26: a draw in range ends in `drawn`, and one out of range faults. -/
theorem drawSpriteXorPlots : Obligations.DrawSpriteXorPlots := by
  refine ⟨fun x y n => Encoding.decode_encode (i := .drawSprite x y n) rfl,
    fun x y n s => ⟨fun h => ?fits, fun ⟨hn, h⟩ => ?beyond⟩⟩
  case fits =>
    obtain ⟨lit, unlit⟩ := drawn_flag s x y n
    exact ⟨_, exec_drawSprite_of_le x y h, drawn_pixel s x y n, lit, unlit, fun _ => drawn_reg_of_ne s x y n,
      drawn_dirty s x y n, drawn_keeps s x y n⟩
  case beyond => exact exec_drawSprite_of_gt x y hn h

/-! ## The same draw twice (R119) -/

/-- A draw moves nothing that the next draw at the same operands reads, but the grid. -/
theorem spritePlots_drawn (s : State) {x y : Nibble} (n : Nibble) (hx : x ≠ 15#4) (hy : y ≠ 15#4) (px : Fin 64)
    (py : Fin 32) : spritePlots (drawn s x y n) x y n px py ↔ spritePlots s x y n px py := by
  obtain ⟨-, hi, hmem, -⟩ := drawn_keeps s x y n
  simp only [spritePlots, effectiveAddress, hi, hmem _, drawn_reg_of_ne s x y n hx, drawn_reg_of_ne s x y n hy]

/-- A pixel of state `p` that the condition `q` flips twice is as it was. -/
theorem flip_twice (p q : Prop) : ¬(¬(p ↔ q) ↔ q) ↔ p := by
  by_cases hq : q <;> simp [hq]

/-- Settles O27: the second draw plots the same pixels, so each of them flips twice; where they were off, the second
draw finds them lit. -/
theorem drawTwiceRestores : Obligations.DrawTwiceRestores := by
  intro x y n s hx hy hfit
  obtain ⟨-, hi, -⟩ := drawn_keeps s x y n
  refine ⟨_, _, exec_drawSprite_of_le x y hfit, exec_drawSprite_of_le x y (by rwa [hi]), fun px py => ?pixels,
    fun ⟨px, py, hplot⟩ hoff => ⟨?firstDraw, ?secondDraw⟩⟩
  case pixels =>
    rw [Bool.eq_iff_iff, drawn_pixel, spritePlots_drawn s n hx hy, drawn_pixel]
    exact flip_twice _ _
  case firstDraw =>
    obtain ⟨-, unlit⟩ := drawn_flag s x y n
    refine unlit fun ⟨qx, qy, hq, hlit⟩ => ?_
    simp [hoff qx qy hq] at hlit
  case secondDraw =>
    obtain ⟨lit, -⟩ := drawn_flag (drawn s x y n) x y n
    refine lit ⟨px, py, (spritePlots_drawn s n hx hy px py).2 hplot, (drawn_pixel s x y n px py).2 ?_⟩
    simp [hoff px py hplot, hplot]

end Sys2Proof.DisplayRandom
end

section
/-! PROOFS. The steps that execute no instruction (`spec/46_cycle_and_scheduler.md` R137 to R142, R149,
`spec/70_reset_and_hazards.md` R193): the poll, the tick, `ClearDirty` and the load, each as one step with its frame. -/

namespace Sys2Proof.Poll
open Sys2Proof.Machine

/-- Taking the grant and closing the load port change the books alone. -/
theorem cycleStart_frame (s : State) :
    let t := cycleStart s
    sameRegs s t ∧ t.pc = s.pc ∧ t.i = s.i ∧ sameMem s t ∧ sameStack s t ∧ sameTimers s t ∧ sameScreen s t ∧
      sameControl s t ∧ sameOutputs s t ∧ takesOneGrant s t := by
  simp [sameRegs, sameMem, sameStack, sameTimers, sameScreen, sameControl, sameOutputs, takesOneGrant]

/-- The state in which a poll has stored the key `k` in `V[r]` (R137). -/
def resolved (r k : Nibble) (s : State) : State :=
  (((cycleStart s).setReg r (k.setWidth 8)).setWait .running).nextPc

theorem waitPoll_cycleStart_of_keyPick {s : State} (r : Nibble) {k : Nibble} (h : keyPick s.key = some k) :
    waitPoll r (cycleStart s) = resolved r k s :=
  Cycle.waitPoll_of_some r (by simpa using h)

theorem resolved_reg_toNat (r k : Nibble) (s : State) : ((resolved r k s).reg r).toNat = k.toNat := by
  have hreg : (resolved r k s).reg r = k.setWidth 8 := by simp [resolved]
  have hk := k.isLt
  rw [hreg, BitVec.toNat_setWidth]
  exact Nat.mod_eq_of_lt (by omega)

theorem resolved_reg_of_ne (r k : Nibble) (s : State) {j : Nibble} (h : j ≠ r) :
    (resolved r k s).reg j = s.reg j := by
  simp [resolved, h]

theorem resolved_keeps (r k : Nibble) (s : State) :
    let t := resolved r k s
    t.wait = .running ∧ t.pc = s.pc + 2#16 ∧ t.i = s.i ∧ sameMem s t ∧ sameStack s t ∧ sameTimers s t ∧
      sameScreen s t ∧ t.fault = s.fault ∧ t.tone = s.tone ∧ t.key = s.key ∧ sameOutputs s t ∧ takesOneGrant s t := by
  simp [resolved, sameMem, sameStack, sameTimers, sameScreen, sameOutputs, takesOneGrant]

/-- Settles O34: the poll picks the least key that is down. -/
theorem waitResolves : Obligations.WaitResolves := by
  intro s r k hm hf hw hdown hleast
  have hstep := step_of_poll s r hm hf hw
  rw [waitPoll_cycleStart_of_keyPick r ((keyPick_eq_some s.key k).2 ⟨hdown, hleast⟩)] at hstep
  have hkeeps := resolved_keeps r k s
  rw [hf] at hkeeps
  exact ⟨_, hstep, resolved_reg_toNat r k s, fun _ => resolved_reg_of_ne r k s, hkeeps⟩

/-- Settles O35: with no key down the poll ends where it started. -/
theorem pollWithoutKeyChangesNothing : Obligations.PollWithoutKeyChangesNothing := by
  intro s r hm hf hw hup
  have hnone : keyPick (cycleStart s).key = none := (keyPick_eq_none _).2 (by simpa [State.keyDown] using hup)
  have hstep := step_of_poll s r hm hf hw
  rw [Cycle.waitPoll_of_none r hnone] at hstep
  exact ⟨_, hstep, cycleStart_frame s⟩

end Sys2Proof.Poll

namespace Sys2Proof.Tick
open Sys2Proof.Machine

/-- What a tick that takes place does to the timers and the events, and its frame (R140, R141). -/
theorem tick_spec (s : State) :
    let t := signalRedraw (countTimers (cycleStart s))
    t.dt.toNat = s.dt.toNat - 1 ∧ t.st.toNat = s.st.toNat - 1 ∧
      t.events = (if s.dirty = true then Event.redrawRequest :: s.events else s.events) ∧
      sameRegs s t ∧ t.pc = s.pc ∧ t.i = s.i ∧ sameMem s t ∧ sameStack s t ∧ sameScreen s t ∧ sameControl s t ∧
      t.draws = s.draws ∧ takesOneGrant s t := by
  simp [Cycle.signalRedraw_eq, sameRegs, State.reg, sameMem, sameStack, sameScreen, sameControl, takesOneGrant]

theorem step_of_timerTick_of_fault {s : State} {f : Fault} (hm : nextMove s = .timerTick) (hf : s.fault = some f) :
    step s = .fault f := by
  simp [HostMoves.step_of_nextMove hm, makeMove, timerTick, hf]

/-- Settles O36: the tick as a step, in both wait states. -/
theorem timerTickCountsDown : Obligations.TimerTickCountsDown :=
  fun s hm => ⟨fun hf => ⟨_, step_of_timerTick s hm hf, tick_spec s⟩, fun _ => step_of_timerTick_of_fault hm⟩

/-! ## Several ticks -/

theorem run_succ_of_next {M : Host.Core} {s t : M.State} (n : Nat) (h : M.step s = .next t) :
    M.run (n + 1) s = M.run n t := by
  rw [Host.Core.run, h]

/-- Settles O37, by induction on the number of ticks: each takes one off and leaves the rest granted. -/
theorem ticksRunTimersDown : Obligations.TicksRunTimersDown := by
  intro n
  induction n with
  | zero => exact fun s _ hagenda => ⟨s, rfl, rfl, rfl, hagenda⟩
  | succ n ih =>
    intro s hf hagenda
    have hm : nextMove s = .timerTick := by rw [nextMove, hagenda]; rfl
    obtain ⟨htick, -⟩ := timerTickCountsDown s hm
    obtain ⟨t, hstep, hdt, hst, -, -, -, -, -, -, -, ⟨-, hfault, -, -⟩, -, hgrant, -⟩ := htick hf
    have htail : t.agenda = List.replicate n .timerTick := by rw [hgrant, hagenda]; rfl
    obtain ⟨u, hrun, hdt', hst', hnil⟩ := ih t (hfault.trans hf) htail
    refine ⟨u, (run_succ_of_next n hstep).trans hrun, ?_, ?_, hnil⟩
    · rw [hdt', hdt, Nat.sub_sub, Nat.add_comm]
    · rw [hst', hst, Nat.sub_sub, Nat.add_comm]

end Sys2Proof.Tick

namespace Sys2Proof.HostMoves
open Sys2Proof.Machine

/-! ## The renderer's clear (R149) -/

theorem step_of_clearDirty {s : State} (h : nextMove s = .clearDirty) :
    step s = .next (s.takeGrant.setDirty false) := step_of_nextMove h

/-- What the clear leaves unchanged: all but `dirty` and the grant taken. -/
theorem takeGrant_setDirty_keeps (s : State) (b : Bool) :
    let t := s.takeGrant.setDirty b
    (∀ px py, pixel t.disp px py = pixel s.disp px py) ∧ sameRegs s t ∧ t.pc = s.pc ∧ t.i = s.i ∧ sameMem s t ∧
      sameStack s t ∧ sameTimers s t ∧ sameControl s t ∧ sameOutputs s t ∧ takesOneGrant s t := by
  simp [sameRegs, sameMem, sameStack, sameTimers, sameControl, sameOutputs, takesOneGrant]

/-- Settles O39: one assignment of `dirty`, which reads no fault latch. -/
theorem clearDirtyMove : Obligations.ClearDirtyMove :=
  fun s hm => ⟨_, step_of_clearDirty hm, rfl, takeGrant_setDirty_keeps s false⟩

/-! ## The load (R193) -/

/-- The state a load that fits ends in. -/
def loaded (bytes : List Byte) (addr : Nat) (s : State) : State :=
  ((s.takeGrant.setMem (copyBytes s.mem addr bytes)).setPc (BitVec.ofNat 16 addr)).closeLoad

section
variable {s : State} {bytes : List Byte} {addr : Nat} (hm : nextMove s = .loadRom bytes addr)
include hm

theorem step_of_loadRom_of_fits (hopen : s.loadOpen = true) (hf : s.fault = none)
    (hlen : addr + bytes.length ≤ 4096) : step s = .next (loaded bytes addr s) := by
  have hallowed : (s.takeGrant.loadOpen && s.takeGrant.fault.isNone) = true := by simp [hopen, hf]
  rw [step_of_nextMove hm, makeMove, loadRom, if_pos hallowed, if_neg (Nat.not_lt.2 hlen), State.takeGrant_mem, loaded]

theorem step_of_loadRom_of_long (hopen : s.loadOpen = true) (hf : s.fault = none)
    (hlen : 4096 < addr + bytes.length) : step s = .fault (.loadOutOfRange addr bytes.length) := by
  have hallowed : (s.takeGrant.loadOpen && s.takeGrant.fault.isNone) = true := by simp [hopen, hf]
  rw [step_of_nextMove hm, makeMove, loadRom, if_pos hallowed, if_pos hlen, raiseFault]

theorem step_of_loadRom_of_closed (h : s.loadOpen = false ∨ s.fault ≠ none) :
    step s = .refused .loadNotAllowed := by
  rw [step_of_nextMove hm, makeMove, loadRom, if_neg]
  obtain h | h := h <;> simp [h]

end

theorem loaded_pc_toNat (bytes : List Byte) {addr : Nat} (s : State) (h : addr ≤ 4096) :
    (loaded bytes addr s).pc.toNat = addr := by
  simp only [loaded, State.closeLoad_pc, State.setPc_pc, BitVec.toNat_ofNat]
  omega

theorem loaded_keeps (bytes : List Byte) (addr : Nat) (s : State) :
    let t := loaded bytes addr s
    sameRegs s t ∧ t.i = s.i ∧ sameStack s t ∧ sameTimers s t ∧ sameScreen s t ∧ sameControl s t ∧ sameOutputs s t ∧
      takesOneGrant s t := by
  simp [loaded, sameRegs, sameStack, sameTimers, sameScreen, sameControl, sameOutputs, takesOneGrant]

/-- Settles O40: the three clauses are the three branches of the load. -/
theorem loadRomCopiesAndSetsPc : Obligations.LoadRomCopiesAndSetsPc := by
  refine fun s bytes addr hm hwf =>
    ⟨fun hopen hf hlen => ?fits, step_of_loadRom_of_long hm, step_of_loadRom_of_closed hm⟩
  case fits =>
    refine ⟨_, step_of_loadRom_of_fits hm hopen hf hlen, loaded_pc_toNat bytes s (by omega), rfl, fun k hk => ?bytes,
      memRead_copyBytes_outside bytes s.mem addr, loaded_keeps bytes addr s⟩
    case bytes =>
      refine (IndexMemory.memRead_copyBytes_at hwf addr hk).trans ?_
      rw [List.getD_eq_getElem?_getD, List.getElem?_eq_getElem hk, Option.getD_some]

/-! ## Any order of moves (R144, R153) -/

/-- Settles O42: the agenda that lists the move first. -/
theorem anyMoveCanComeNext : Obligations.AnyMoveCanComeNext :=
  fun _ m later => ⟨m :: later, rfl, rfl⟩

end Sys2Proof.HostMoves
end

section
/-! PROOFS. The rules over every step (`spec/10_state.md`). A step executes an instruction or it is one of the other
moves, and `BesideCycle` says once what those can do to each piece of state (`step_executes_or_beside`). Each rule then
follows from its clause there and from what an instruction can change (`exec_keeps` and its fellows). -/

namespace Sys2Proof.WholeMachine
open Sys2Proof.Machine

/-! ## What a step that executes no instruction can do -/

/-- What each piece of state can be after a poll, a tick, a host move or a load. -/
structure BesideCycle (s t : State) : Prop where
  idle : ¬runsCycle s
  i : t.i = s.i
  sp : t.sp = s.sp
  stack : t.stack = s.stack
  disp : t.disp = s.disp
  tone : t.tone = s.tone
  fault : t.fault = s.fault
  key : t.key = s.key ∨ ∃ k, nextMove s = .setKey k ∨ nextMove s = .clearKey k
  dirty : t.dirty = s.dirty ∨ nextMove s = .clearDirty ∧ t.dirty = false
  timers : t.dt = s.dt ∧ t.st = s.st ∨ nextMove s = .timerTick ∧ t.dt = countDown s.dt ∧ t.st = countDown s.st
  mem : t.mem = s.mem ∨
    s.loadOpen = true ∧ ∃ bytes addr, nextMove s = .loadRom bytes addr ∧ t.mem = copyBytes s.mem addr bytes
  wait : t.wait = s.wait ∨ ∃ r k, nextMove s = .instrIteration ∧ s.wait = .waitingForKey r ∧ s.keyDown k = true ∧
    t.wait = .running ∧ t.pc = s.pc + 2#16

theorem beside_of_poll {s : State} {r : Nibble} (hm : nextMove s = .instrIteration) (hw : s.wait = .waitingForKey r) :
    BesideCycle s (waitPoll r (cycleStart s)) := by
  have hidle : ¬runsCycle s := by simp [runsCycle, hw]
  rcases hk : keyPick s.key with _ | k
  · rw [Cycle.waitPoll_of_none r (by simpa using hk)]
    constructor <;> simp [hidle]
  · have hdown : s.keyDown k = true := ((keyPick_eq_some s.key k).1 hk).1
    rw [Poll.waitPoll_cycleStart_of_keyPick r hk]
    constructor
    case wait => exact .inr ⟨r, k, hm, hw, hdown, rfl, by simp [Poll.resolved]⟩
    all_goals simp [Poll.resolved, hidle]

theorem beside_of_tick {s : State} (hm : nextMove s = .timerTick) :
    BesideCycle s (signalRedraw (countTimers (cycleStart s))) := by
  constructor <;> simp [Cycle.signalRedraw_eq, runsCycle, hm]

theorem beside_of_setKeyTo {s : State} {k : Nibble} (b : Bool)
    (hm : nextMove s = .setKey k ∨ nextMove s = .clearKey k) : BesideCycle s (s.takeGrant.setKeyTo k b) := by
  constructor
  case idle => obtain h | h := hm <;> simp [runsCycle, h]
  case key => exact .inr ⟨k, hm⟩
  all_goals simp

theorem beside_of_readDisplay {s : State} (hm : nextMove s = .readDisplay) :
    BesideCycle s (hostReadDisplay s.takeGrant) := by
  constructor <;> simp [runsCycle, hm]

theorem beside_of_clearDirty {s : State} (hm : nextMove s = .clearDirty) :
    BesideCycle s (hostClearDirty s.takeGrant) := by
  constructor <;> simp [runsCycle, hm]

theorem beside_of_load {s : State} {bytes : List Byte} {addr : Nat} (hm : nextMove s = .loadRom bytes addr)
    (hopen : s.loadOpen = true) : BesideCycle s (HostMoves.loaded bytes addr s) := by
  constructor
  case mem => exact .inr ⟨hopen, bytes, addr, hm, rfl⟩
  all_goals simp [HostMoves.loaded, runsCycle, hm]

/-- A step executes an instruction, or is one of the other moves. -/
theorem step_executes_or_beside {s t : State} (h : step s = .next t) :
    (∃ i u, executes s i ∧ exec i (cycleStart s) = .next u ∧ t = refreshTone u) ∨ BesideCycle s t := by
  obtain hx | ⟨r, hm, -, hw, rfl⟩ | ⟨hm, -, rfl⟩ | ⟨k, hm, rfl⟩ | ⟨k, hm, rfl⟩ | ⟨hm, rfl⟩ | ⟨hm, rfl⟩ |
    ⟨bytes, addr, hm, hopen, -, -, rfl⟩ := step_next_cases s t h
  · exact .inl hx
  · exact .inr (beside_of_poll hm hw)
  · exact .inr (beside_of_tick hm)
  · exact .inr (beside_of_setKeyTo true (.inl hm))
  · exact .inr (beside_of_setKeyTo false (.inr hm))
  · exact .inr (beside_of_readDisplay hm)
  · exact .inr (beside_of_clearDirty hm)
  · exact .inr (beside_of_load hm hopen)

/-! ## The fault latch (R27, R163) -/

theorem step_keeps_fault {s t : State} (h : step s = .next t) : t.fault = s.fault := by
  obtain ⟨i, u, -, hx, rfl⟩ | hb := step_executes_or_beside h
  · obtain ⟨-, -, hfault, -⟩ := exec_keeps i _ u hx
    simpa using hfault
  · exact hb.fault

theorem advance_of_fault {s : State} {f : Fault} (h : step s = .fault f) : advance s = latchFault f s.takeGrant := by
  rw [step] at h
  rw [advance, stateAfter, h]

/-- An iteration or a tick that is granted to a stopped core answers its fault again (R163). -/
theorem step_of_stopped {s : State} {f : Fault} (hf : s.fault = some f)
    (hm : nextMove s = .instrIteration ∨ nextMove s = .timerTick) : step s = .fault f := by
  obtain h | h := hm
  · simp [HostMoves.step_of_nextMove h, makeMove, instrIteration, hf]
  · exact Tick.step_of_timerTick_of_fault h hf

theorem latchFault_takeGrant_of_some {s : State} {f : Fault} (g : Fault) (hf : s.fault = some f) :
    latchFault g s.takeGrant = s.takeGrant :=
  latchFault_of_some g f _ (by rw [State.takeGrant_fault, hf])

/-- Settles O41: the latch is written where it is empty, and every outcome of a step keeps it where it is not. -/
theorem faultIsTerminal : Obligations.FaultIsTerminal := by
  refine ⟨fun s f hf hstep => ?latched, fun s f hf hm => ?stopped, fun s f hf => ?kept⟩
  case latched => simp [advance_of_fault hstep, latchFault_of_none f s.takeGrant (by simpa using hf)]
  case stopped =>
    have hstep := step_of_stopped hf hm
    exact ⟨hstep, by rw [advance_of_fault hstep, latchFault_takeGrant_of_some f hf]⟩
  case kept =>
    rcases hstep : step s with t | g | r
    · have hadv : advance s = t := by
        rw [step] at hstep
        rw [advance, stateAfter, hstep]
      rw [hadv, step_keeps_fault hstep, hf]
    · rw [advance_of_fault hstep, latchFault_takeGrant_of_some g hf, State.takeGrant_fault, hf]
    · have hadv : advance s = s.takeGrant := by
        rw [step] at hstep
        rw [advance, stateAfter, hstep]
      rw [hadv, State.takeGrant_fault, hf]

/-! ## Who changes each piece of state -/

/-- Settles O47: no instruction writes a key. -/
theorem onlyInputSourceWritesKeys : Obligations.OnlyInputSourceWritesKeys := by
  intro s t hstep hne
  obtain ⟨i, u, -, hx, rfl⟩ | hb := step_executes_or_beside hstep
  · obtain ⟨hkey, -⟩ := exec_keeps i _ u hx
    exact absurd (by simpa using hkey) hne
  · exact hb.key.resolve_left hne

/-- An executed instruction that changes the screen is one of the two of the display, and does not clear `dirty`. -/
theorem executes_screen {s u : State} {i : Instr} (he : executes s i) (hx : exec i (cycleStart s) = .next u) :
    (u.disp = s.disp ∧ u.dirty = s.dirty) ∨
    ((executes s .clearDisplay ∨ ∃ x y n, executes s (.drawSprite x y n)) ∧ (s.dirty = true → u.dirty = true)) := by
  obtain hsame | ⟨rfl | ⟨x, y, n, rfl⟩, hdirty⟩ := exec_screen i _ u hx
  · exact .inl (by simpa using hsame)
  · exact .inr ⟨.inl he, by simpa using hdirty⟩
  · exact .inr ⟨.inr ⟨x, y, n, he⟩, by simpa using hdirty⟩

/-- Settles O48: the two instructions of the display set the flag, and only the renderer's move clears it. -/
theorem dirtyIsSetAndClearedOnlySo : Obligations.DirtyIsSetAndClearedOnlySo := by
  intro s t hstep
  obtain ⟨i, u, he, hx, rfl⟩ | hb := step_executes_or_beside hstep
  · have hrefresh : (refreshTone u).dirty = u.dirty := rfl
    rw [hrefresh]
    obtain ⟨-, hsame⟩ | ⟨hby, hkept⟩ := executes_screen he hx
    · exact ⟨fun hoff hon => by simp [hsame, hoff] at hon, fun hon hoff => by simp [hsame, hon] at hoff⟩
    · exact ⟨fun _ _ => hby, fun hon hoff => by simp [hkept hon] at hoff⟩
  · obtain hsame | ⟨hm, hclear⟩ := hb.dirty
    · exact ⟨fun hoff hon => by simp [hsame, hoff] at hon, fun hon hoff => by simp [hsame, hon] at hoff⟩
    · exact ⟨fun _ hon => by simp [hclear] at hon, fun _ _ => hm⟩

/-- Settles O49: the grid is written by the two instructions of the display alone. -/
theorem onlyClearAndDrawChangePixels : Obligations.OnlyClearAndDrawChangePixels := by
  intro s t hstep hne
  obtain ⟨i, u, he, hx, rfl⟩ | hb := step_executes_or_beside hstep
  · obtain ⟨hsame, -⟩ | ⟨hby, -⟩ := executes_screen he hx
    · exact absurd hsame hne
    · exact hby
  · exact absurd hb.disp hne

/-- Settles O50: the stack is written by the call and the return alone. -/
theorem onlyCallAndReturnChangeStack : Obligations.OnlyCallAndReturnChangeStack := by
  intro s t hstep hne
  obtain ⟨i, u, he, hx, rfl⟩ | hb := step_executes_or_beside hstep
  · obtain ⟨hstack, hsp⟩ | ⟨nnn, rfl, -⟩ | ⟨rfl, -⟩ := exec_stack i _ u hx
    · have hsame : u.sp = s.sp ∧ u.stack = s.stack := by simpa using And.intro hsp hstack
      exact (hne.elim (absurd hsame.1) (absurd hsame.2))
    · exact .inl ⟨nnn, he⟩
    · exact .inr he
  · exact (hne.elim (absurd hb.sp) (absurd hb.stack))

/-- A countdown that changes a timer takes one off it (R140). -/
theorem countDown_add_one_of_ne {b : Byte} (h : countDown b ≠ b) : (countDown b).toNat + 1 = b.toNat := by
  have hpos : b.toNat ≠ 0 := fun h0 => h (BitVec.eq_of_toNat_eq (by rw [countDown_toNat, h0]))
  rw [countDown_toNat]
  omega

/-- Settles O51: one instruction writes each timer, and the tick counts both down. -/
theorem timersChangeOnlySo : Obligations.TimersChangeOnlySo := by
  intro s t hstep
  obtain ⟨i, u, he, hx, rfl⟩ | hb := step_executes_or_beside hstep
  · obtain ⟨hdt, hst⟩ := exec_timers i _ u hx
    refine ⟨fun hne => .inl ?dt, fun hne => .inl ?st⟩
    case dt =>
      obtain ⟨x, rfl, hv⟩ := hdt.resolve_left (by simpa using hne)
      exact ⟨x, he, hv.trans (InputTimers.cycleStart_reg s x)⟩
    case st =>
      obtain ⟨x, rfl, hv⟩ := hst.resolve_left (by simpa using hne)
      exact ⟨x, he, hv.trans (InputTimers.cycleStart_reg s x)⟩
  · obtain ⟨hdt, hst⟩ | ⟨hm, hdt, hst⟩ := hb.timers
    · exact ⟨fun hne => absurd hdt hne, fun hne => absurd hst hne⟩
    · rw [hdt, hst]
      exact ⟨fun hne => .inr ⟨hm, countDown_add_one_of_ne hne⟩, fun hne => .inr ⟨hm, countDown_add_one_of_ne hne⟩⟩

/-- Settles O52: no move but three instructions writes `I`. -/
theorem onlyThreeInstructionsWriteI : Obligations.OnlyThreeInstructionsWriteI := by
  intro s t hstep hne
  obtain ⟨i, u, he, hx, rfl⟩ | hb := step_executes_or_beside hstep
  · obtain hsame | ⟨nnn, rfl⟩ | ⟨x, rfl⟩ | ⟨x, rfl⟩ := exec_i i _ u hx
    · exact absurd (by simpa using hsame) hne
    · exact .inl ⟨nnn, he⟩
    · exact .inr (.inl ⟨x, he⟩)
    · exact .inr (.inr ⟨x, he⟩)
  · exact absurd hb.i hne

/-- An address that a copy changes lies in the range it copies to. -/
theorem mem_range_of_copyBytes_ne {m : Memory} {a b : Nat} {bs : List Byte}
    (h : memRead (copyBytes m a bs) b ≠ memRead m b) : a ≤ b ∧ b < a + bs.length :=
  Decidable.byContradiction fun hout => h (memRead_copyBytes_outside bs m a b hout)

/-- Settles O53: each write of memory is a copy, and changes no byte outside its range. -/
theorem onlyStoresChangeMemory : Obligations.OnlyStoresChangeMemory := by
  intro s t a hstep hne
  obtain ⟨i, u, he, hx, rfl⟩ | hb := step_executes_or_beside hstep
  · have hrefresh : (refreshTone u).mem = u.mem := rfl
    rw [hrefresh] at hne
    obtain hsame | ⟨x, rfl, -, hmem⟩ | ⟨x, rfl, -, hmem⟩ := exec_mem i _ u hx
    · exact absurd (by simp [hsame]) hne
    · simp only [hmem, Cycle.cycleStart_eq, State.closeLoad_mem, State.takeGrant_mem, State.closeLoad_i,
        State.takeGrant_i] at hne
      obtain ⟨hlo, hhi⟩ := mem_range_of_copyBytes_ne hne
      exact .inl ⟨⟨x, he⟩, hlo, Nat.le_of_lt_succ hhi⟩
    · simp only [hmem, Cycle.cycleStart_eq, State.closeLoad_mem, State.takeGrant_mem, State.closeLoad_i,
        State.takeGrant_i] at hne
      obtain ⟨hlo, hhi⟩ := mem_range_of_copyBytes_ne hne
      rw [regBlock_length] at hhi
      exact .inr (.inl ⟨x, he, hlo, Nat.le_of_lt_succ hhi⟩)
  · obtain hsame | ⟨hopen, bytes, addr, hm, hmem⟩ := hb.mem
    · exact absurd (by rw [hsame]) hne
    · rw [hmem] at hne
      exact .inr (.inr ⟨hopen, bytes, addr, hm, mem_range_of_copyBytes_ne hne⟩)

/-- Settles O54: the wait is entered by its instruction and left by a poll that finds a key. -/
theorem waitTransitions : Obligations.WaitTransitions := by
  intro s t hstep hne
  obtain ⟨i, u, he, hx, rfl⟩ | hb := step_executes_or_beside hstep
  · obtain hsame | ⟨x, rfl, hwait, hpc⟩ := exec_wait i _ u hx
    · exact absurd (by simpa using hsame) hne
    · exact .inl ⟨x, he, hwait, by simpa using hpc⟩
  · exact .inr (hb.wait.resolve_left hne)

/-- Settles O55: a cycle ends with the refresh, and nothing else writes the tone latch. -/
theorem toneChangesOnlyAtCycleEnd : Obligations.ToneChangesOnlyAtCycleEnd := by
  intro s t hstep
  obtain ⟨i, u, ⟨hrun, -⟩, -, rfl⟩ | hb := step_executes_or_beside hstep
  · exact ⟨fun _ => hrun, fun _ => InputTimers.refreshTone_tone_iff u⟩
  · exact ⟨fun hne => absurd hb.tone hne, fun hrun => absurd hrun hb.idle⟩

end Sys2Proof.WholeMachine
end

section
/-! PROOFS. The rules over every instruction: which of them write `VF` (`spec/10_state.md` R12), which of them can
fault and with what record (`spec/60_exceptions.md` R160), and that none but the named ones reads the screen, the sound
timer or the tone latch (R18, R21, R22, R28). -/

namespace Sys2Proof.EveryInstruction
open Sys2Proof.Machine

/-! ## The registers (R12) -/

/-- The instructions that write a general register. -/
def writesRegisters : Instr → Bool
  | .setVxToByte .. | .addByteToVx .. | .setVxToVy .. | .setVxToVxOrVy .. | .setVxToVxAndVy .. | .setVxToVxXorVy ..
  | .addVyToVxWithCarry .. | .subtractVyFromVxWithBorrow .. | .shiftVxRightByOne .. | .setVxToVyMinusVx ..
  | .shiftVxLeftByOne .. | .setVxToRandomAndByte .. | .drawSprite .. | .setVxToDelayTimer ..
  | .readRegistersV0ThroughVxFromMemory .. => true
  | _ => false

theorem exec_regs (i : Instr) (s t : State) (h : exec i s = .next t) : writesRegisters i = true ∨ sameRegs s t := by
  revert i s t
  apply exec_next_induct
  case rest =>
    intro i s t h hcall hret hbcd hstore hload hdraw
    cases i
    case callSubroutine nnn => exact absurd rfl (hcall nnn)
    case returnFromSubroutine => exact absurd rfl hret
    case storeBcdOfVxAtI x => exact absurd rfl (hbcd x)
    case storeRegistersV0ThroughVxInMemory x => exact absurd rfl (hstore x)
    case setVxToByte | addByteToVx | setVxToVy | setVxToVxOrVy | setVxToVxAndVy | setVxToVxXorVy | addVyToVxWithCarry
      | subtractVyFromVxWithBorrow | shiftVxRightByOne | setVxToVyMinusVx | shiftVxLeftByOne | setVxToRandomAndByte
      | drawSprite | setVxToDelayTimer | readRegistersV0ThroughVxFromMemory => exact .inl rfl
    all_goals
      cases h
      exact .inr fun _ => rfl
  case load | draw =>
    intros
    exact .inl rfl
  all_goals
    intros
    exact .inr fun _ => rfl

theorem exec_keeps_regs {i : Instr} {s t : State} (hi : writesRegisters i = false) (h : exec i s = .next t) :
    sameRegs s t :=
  (exec_regs i s t h).resolve_left (by simp [hi])

theorem eq_of_exec_next {i : Instr} {s t u : State} (hu : exec i s = .next u) (ht : exec i s = .next t) : u = t :=
  Host.Outcome.next.inj (hu.symm.trans ht)

/-- A block load whose range does not reach `VF` leaves it alone. -/
theorem exec_readRegisters_keeps_VF {x : Nibble} {s t : State}
    (h : exec (.readRegistersV0ThroughVxFromMemory x) s = .next t) (hx : x ≠ 15#4) : t.reg 15#4 = s.reg 15#4 := by
  have hlt : ¬15 ≤ x.toNat := fun hle => hx (BitVec.eq_of_toNat_eq (by have := x.isLt; simp; omega))
  by_cases hfit : s.i.toNat + x.toNat ≤ 4095
  · obtain rfl := eq_of_exec_next (IndexMemory.exec_readRegistersV0ThroughVxFromMemory_of_le hfit) h
    exact (IndexMemory.loadRegs_bytesAtI_reg s x 15#4).trans (if_neg hlt)
  · rw [IndexMemory.exec_readRegistersV0ThroughVxFromMemory_of_gt (by omega)] at h
    cases h

/-- Settles O45: the five ALU operations and the draw by their own rules, the instructions with a named destination by
the rule of one register write, and the others because they write no register. -/
theorem onlySixInstructionsWriteVF : Obligations.OnlySixInstructionsWriteVF := by
  intro i s t h
  cases i
  case addVyToVxWithCarry x y =>
    obtain ⟨u, hu, hflag, -⟩ := LoadArith.addWithCarry x y s
    exact eq_of_exec_next hu h ▸ hflag
  case subtractVyFromVxWithBorrow x y =>
    obtain ⟨⟨u, hu, hflag, -⟩, -⟩ := LoadArith.subtractionsSetNotBorrow x y s
    exact eq_of_exec_next hu h ▸ hflag
  case setVxToVyMinusVx x y =>
    obtain ⟨-, ⟨u, hu, hflag, -⟩⟩ := LoadArith.subtractionsSetNotBorrow x y s
    exact eq_of_exec_next hu h ▸ hflag
  case shiftVxRightByOne x y =>
    obtain ⟨⟨u, hu, hflag, -⟩, -⟩ := LoadArith.shiftsPutBitIntoVF x y s
    exact eq_of_exec_next hu h ▸ hflag
  case shiftVxLeftByOne x y =>
    obtain ⟨-, ⟨u, hu, hflag, -⟩⟩ := LoadArith.shiftsPutBitIntoVF x y s
    exact eq_of_exec_next hu h ▸ hflag
  case drawSprite x y n =>
    obtain rfl := DisplayRandom.eq_drawn_of_exec_drawSprite h
    obtain ⟨lit, unlit⟩ := DisplayRandom.drawn_flag s x y n
    by_cases hc : ∃ px py, spritePlots s x y n px py ∧ pixel s.disp px py = true
    · exact .inl ⟨lit hc, hc⟩
    · exact .inr ⟨unlit hc, hc⟩
  case setVxToByte | addByteToVx | setVxToVy | setVxToVxOrVy | setVxToVxAndVy | setVxToVxXorVy | setVxToDelayTimer =>
    cases h
    exact fun hx => LoadArith.setReg_nextPc_reg_of_ne s _ hx.symm
  case setVxToRandomAndByte =>
    cases h
    exact fun hx => LoadArith.setReg_nextPc_reg_of_ne s.countDraw _ hx.symm
  case readRegistersV0ThroughVxFromMemory => exact exec_readRegisters_keeps_VF h
  all_goals exact exec_keeps_regs rfl h 15#4

/-! ## The faults (R160) -/

theorem lt_firstOutOfRange (a : Nat) : 4095 < firstOutOfRange a := by
  unfold firstOutOfRange
  split
  · assumption
  · decide

/-- The four instructions that read or write memory through `I`. -/
def accessesMemory (i : Instr) : Prop :=
  (∃ x, i = .storeBcdOfVxAtI x) ∨ (∃ x, i = .storeRegistersV0ThroughVxInMemory x) ∨
    (∃ x, i = .readRegistersV0ThroughVxFromMemory x) ∨ ∃ x y n, i = .drawSprite x y n

/-- The faults of R160 that an instruction can raise, each with its cause and its record. -/
def mayFaultWith (i : Instr) (s : State) (f : Fault) : Prop :=
  (∃ nnn, i = .callSubroutine nnn ∧ s.sp.val = 16 ∧ f = .stackOverflow (encode i) s.pc) ∨
  (i = .returnFromSubroutine ∧ s.sp.val = 0 ∧ f = .stackUnderflow (encode i) s.pc) ∨
  (accessesMemory i ∧ ∃ a, 4095 < a ∧ f = .memOutOfRange a (some (encode i)) s.pc)

theorem mayFaultWith_firstOutOfRange {i : Instr} (hi : accessesMemory i) (s : State) (a : Nat) :
    mayFaultWith i s (.memOutOfRange (firstOutOfRange a) (some (encode i)) s.pc) :=
  .inr (.inr ⟨hi, _, lt_firstOutOfRange a, rfl⟩)

/-- An instruction answers a next state or one of its own faults. -/
theorem exec_next_or_fault (i : Instr) (s : State) :
    (∃ t, exec i s = .next t) ∨ ∃ f, exec i s = .fault f ∧ mayFaultWith i s f := by
  cases i
  case callSubroutine nnn =>
    by_cases h : s.sp.val < 16
    · exact .inl ⟨_, Flow.exec_callSubroutine_of_lt nnn s h⟩
    · have hfull : s.sp.val = 16 := by omega
      exact .inr ⟨_, Flow.exec_callSubroutine_of_full nnn s hfull, .inl ⟨nnn, rfl, hfull, rfl⟩⟩
  case returnFromSubroutine =>
    by_cases h : s.sp.val = 0
    · exact .inr ⟨_, Flow.exec_returnFromSubroutine_of_empty s h, .inr (.inl ⟨rfl, h, rfl⟩)⟩
    · exact .inl ⟨_, Flow.exec_returnFromSubroutine_of_pos s (Nat.pos_of_ne_zero h)⟩
  case storeBcdOfVxAtI x =>
    by_cases h : s.i.toNat + 2 ≤ 4095
    · exact .inl ⟨_, IndexMemory.exec_storeBcdOfVxAtI_of_le x h⟩
    · exact .inr ⟨_, IndexMemory.exec_storeBcdOfVxAtI_of_gt x (Nat.not_le.1 h),
        mayFaultWith_firstOutOfRange (.inl ⟨x, rfl⟩) s _⟩
  case storeRegistersV0ThroughVxInMemory x =>
    by_cases h : s.i.toNat + x.toNat ≤ 4095
    · exact .inl ⟨_, IndexMemory.exec_storeRegistersV0ThroughVxInMemory_of_le h⟩
    · exact .inr ⟨_, IndexMemory.exec_storeRegistersV0ThroughVxInMemory_of_gt (Nat.not_le.1 h),
        mayFaultWith_firstOutOfRange (.inr (.inl ⟨x, rfl⟩)) s _⟩
  case readRegistersV0ThroughVxFromMemory x =>
    by_cases h : s.i.toNat + x.toNat ≤ 4095
    · exact .inl ⟨_, IndexMemory.exec_readRegistersV0ThroughVxFromMemory_of_le h⟩
    · exact .inr ⟨_, IndexMemory.exec_readRegistersV0ThroughVxFromMemory_of_gt (Nat.not_le.1 h),
        mayFaultWith_firstOutOfRange (.inr (.inr (.inl ⟨x, rfl⟩))) s _⟩
  case drawSprite x y n =>
    by_cases h : n = 0#4 ∨ s.i.toNat + n.toNat ≤ 4096
    · exact .inl ⟨_, DisplayRandom.exec_drawSprite_of_le x y h⟩
    · obtain ⟨hn, hr⟩ := not_or.1 h
      exact .inr ⟨_, DisplayRandom.exec_drawSprite_of_gt x y hn (Nat.not_le.1 hr),
        mayFaultWith_firstOutOfRange (.inr (.inr (.inr ⟨x, y, n, rfl⟩))) s _⟩
  all_goals exact .inl ⟨_, rfl⟩

/-- Settles O46: neither of the two outcomes is a refusal, and the fault is the one that was given. -/
theorem onlySixInstructionsFault : Obligations.OnlySixInstructionsFault := by
  intro i s
  obtain ⟨t, hx⟩ | ⟨g, hx, hg⟩ := exec_next_or_fault i s
  · exact ⟨fun r h => (nomatch hx.symm.trans h), fun f h => (nomatch hx.symm.trans h)⟩
  · refine ⟨fun r h => (nomatch hx.symm.trans h), fun f h => ?_⟩
    obtain rfl := Host.Outcome.fault.inj (hx.symm.trans h)
    exact hg

/-! ## What no instruction reads (R18, R21, R22, R28) -/

/-- Another grid, dirty flag, sound timer and tone latch: what the machine shows and sounds. -/
def withOutputs (d : Display) (b : Bool) (e : Byte) (c : Bool) (s : State) : State :=
  { s with disp := d, dirty := b, st := e, tone := c }

/-- The outcome with its next state changed by `f`. -/
def mapNext (f : State → State) : Host.Outcome State Fault Refusal → Host.Outcome State Fault Refusal
  | .next t => .next (f t)
  | .fault r => .fault r
  | .refused r => .refused r

/-- Every instruction but the two of the display and the write of `ST` does the same whatever those four hold. -/
theorem exec_withOutputs (i : Instr) (s : State) (d : Display) (b : Bool) (e : Byte) (c : Bool)
    (hclear : i ≠ .clearDisplay) (hdraw : ∀ x y n, i ≠ .drawSprite x y n) (hsound : ∀ x, i ≠ .setSoundTimerToVx x) :
    exec i (withOutputs d b e c s) = mapNext (withOutputs d b e c) (exec i s) := by
  cases i
  case clearDisplay => exact absurd rfl hclear
  case drawSprite x y n => exact absurd rfl (hdraw x y n)
  case setSoundTimerToVx x => exact absurd rfl (hsound x)
  case callSubroutine nnn =>
    by_cases h : s.sp.val < 16
    · rw [Flow.exec_callSubroutine_of_lt nnn s h, Flow.exec_callSubroutine_of_lt nnn (withOutputs d b e c s) h]
      rfl
    · have hfull : s.sp.val = 16 := by omega
      rw [Flow.exec_callSubroutine_of_full nnn s hfull,
        Flow.exec_callSubroutine_of_full nnn (withOutputs d b e c s) hfull]
      rfl
  case returnFromSubroutine =>
    by_cases h : s.sp.val = 0
    · rw [Flow.exec_returnFromSubroutine_of_empty s h,
        Flow.exec_returnFromSubroutine_of_empty (withOutputs d b e c s) h]
      rfl
    · rw [Flow.exec_returnFromSubroutine_of_pos s (Nat.pos_of_ne_zero h),
        Flow.exec_returnFromSubroutine_of_pos (withOutputs d b e c s) (Nat.pos_of_ne_zero h)]
      rfl
  case storeBcdOfVxAtI x =>
    by_cases h : s.i.toNat + 2 ≤ 4095
    · rw [IndexMemory.exec_storeBcdOfVxAtI_of_le x h,
        IndexMemory.exec_storeBcdOfVxAtI_of_le (s := withOutputs d b e c s) x h]
      rfl
    · rw [IndexMemory.exec_storeBcdOfVxAtI_of_gt x (Nat.not_le.1 h),
        IndexMemory.exec_storeBcdOfVxAtI_of_gt (s := withOutputs d b e c s) x (Nat.not_le.1 h)]
      rfl
  case storeRegistersV0ThroughVxInMemory x =>
    by_cases h : s.i.toNat + x.toNat ≤ 4095
    · rw [IndexMemory.exec_storeRegistersV0ThroughVxInMemory_of_le h,
        IndexMemory.exec_storeRegistersV0ThroughVxInMemory_of_le (s := withOutputs d b e c s) h]
      rfl
    · rw [IndexMemory.exec_storeRegistersV0ThroughVxInMemory_of_gt (Nat.not_le.1 h),
        IndexMemory.exec_storeRegistersV0ThroughVxInMemory_of_gt (s := withOutputs d b e c s) (Nat.not_le.1 h)]
      rfl
  case readRegistersV0ThroughVxFromMemory x =>
    by_cases h : s.i.toNat + x.toNat ≤ 4095
    · rw [IndexMemory.exec_readRegistersV0ThroughVxFromMemory_of_le h,
        IndexMemory.exec_readRegistersV0ThroughVxFromMemory_of_le (s := withOutputs d b e c s) h]
      rfl
    · rw [IndexMemory.exec_readRegistersV0ThroughVxFromMemory_of_gt (Nat.not_le.1 h),
        IndexMemory.exec_readRegistersV0ThroughVxFromMemory_of_gt (s := withOutputs d b e c s) (Nat.not_le.1 h)]
      rfl
  all_goals rfl

/-- Settles O56: the sound outputs are taken as they are, and no instruction but FX18 moves them. -/
theorem screenIsInvisibleToOthers : Obligations.ScreenIsInvisibleToOthers := by
  intro i s d b hclear hdraw
  by_cases hsound : ∃ x, i = .setSoundTimerToVx x
  · obtain ⟨x, rfl⟩ := hsound
    rfl
  · have hno : ∀ x, i ≠ .setSoundTimerToVx x := fun x hx => hsound ⟨x, hx⟩
    refine (exec_withOutputs i s d b s.st s.tone hclear hdraw hno).trans ?_
    rcases hx : exec i s with t | f | r
    · obtain ⟨-, hst⟩ := exec_timers i s t hx
      obtain ⟨-, htone, -⟩ := exec_keeps i s t hx
      have hst' : t.st = s.st := hst.resolve_right fun ⟨x, hi, _⟩ => hno x hi
      rw [← hst', ← htone]
      rfl
    · rfl
    · rfl

/-- Settles O57: the screen is taken as it is; the two instructions that move it do not read the sound outputs. -/
theorem soundIsInvisibleToPrograms : Obligations.SoundIsInvisibleToPrograms := by
  intro i s e c hsound
  by_cases hscreen : i = .clearDisplay ∨ ∃ x y n, i = .drawSprite x y n
  · obtain rfl | ⟨x, y, n, rfl⟩ := hscreen
    · rfl
    · by_cases h : n = 0#4 ∨ s.i.toNat + n.toNat ≤ 4096
      · rw [DisplayRandom.exec_drawSprite_of_le x y h,
          DisplayRandom.exec_drawSprite_of_le (s := { s with st := e, tone := c }) x y h]
        rfl
      · obtain ⟨hn, hr⟩ := not_or.1 h
        rw [DisplayRandom.exec_drawSprite_of_gt x y hn (Nat.not_le.1 hr),
          DisplayRandom.exec_drawSprite_of_gt (s := { s with st := e, tone := c }) x y hn (Nat.not_le.1 hr)]
        rfl
  · obtain ⟨hclear, hdraw⟩ := not_or.1 hscreen
    refine (exec_withOutputs i s s.disp s.dirty e c hclear (fun x y n hi => hdraw ⟨x, y, n, hi⟩) hsound).trans ?_
    rcases hx : exec i s with t | f | r
    · obtain ⟨hdisp, hdirty⟩ := (exec_screen i s t hx).resolve_right fun ⟨hi, _⟩ => hscreen hi
      rw [← hdisp, ← hdirty]
      rfl
    · rfl
    · rfl

end Sys2Proof.EveryInstruction
end
